-- ==== Sys2Proof/Word.lean ====
section
/-! DEFINITION. The word types of the 6140 and the index types its rules number things by. -/

namespace Sys2Proof

/-- Eight bits: a command code, an operand, a cause set (R171), a byte of the EEPROM. -/
abbrev Byte := BitVec 8

/-- "A word is 16 bits" (00_scope.md, section 0.6). -/
abbrev Word := BitVec 16

/-- A 32-bit quantity: VALUE, REFERENCE, SHADOW, LOW, HIGH (R1). -/
abbrev Long := BitVec 32

/-- The index of a point in the table, 0 to 255 (R1). -/
abbrev PointNo := Fin 256

/-- The number of a segment of the pool, 0 to 95 (R100). -/
abbrev SegNo := Fin 96

/-- The number of a region, 0 to 7 (R118). -/
abbrev RegionNo := Fin 8

/-- The number of a scan class, 0 to 3 (R55). -/
abbrev ClassNo := Fin 4

/-- The number of a notification level, 0 to 7 (R148). -/
abbrev Level := Fin 8

/-- The number of an attention line, 0 to 7 (R140). -/
abbrev LineNo := Fin 8

end Sys2Proof
end

