-- ==== Sys2Proof/Syntax.lean ====
section
/-! DEFINITION. The commands and events of the 6140: one constructor of Instr per row of spec/opcode_table.json. -/

namespace Sys2Proof

/-- The two ports, each with a command slot of its own (R27). -/
inductive Port where
  | primary
  | maint
  deriving DecidableEq, Repr

/-- The line an access travels on: the SPI line of the primary port, or the I2C line of the maintenance port with the
7-bit target address the controller sent (R164, R165). -/
inductive Via where
  | spi
  | i2c (target : BitVec 7)
  deriving DecidableEq, Repr

/-- The port a line belongs to. -/
def Via.port : Via → Port
  | .spi => .primary
  | .i2c _ => .maint

/-- How the EEPROM answered a read transaction (R178): it did not acknowledge, or it delivered these bytes, in ascending
address order from the transaction's starting byte address. -/
inductive EepromAnswer where
  | failed
  | bytes (bs : List Byte)
  deriving DecidableEq, Repr

/-- One EEPROM read transaction of the boot loader (R178): the 7-bit device address it was sent to, the starting byte
address sent as two bytes, and the answer. -/
structure EepromRead where
  device : BitVec 7
  start : Word
  answer : EepromAnswer
  deriving DecidableEq, Repr

/-- The commands and events. The command rows name the port whose slot holds the command; code, operand and
parameters are those the slot captured (R28). The register rows name the line and the written word. -/
inductive Instr where
  /-- The table engine takes a DEFINE from the slot of `p` (R34). -/
  | define (p : Port)
  /-- The table engine takes a MODIFY (R35). -/
  | modify (p : Port)
  /-- The table engine takes a RETIRE (R37). -/
  | retire (p : Port)
  /-- The table engine takes a HOLD (R20, R39). -/
  | hold (p : Port)
  /-- The table engine takes a RELEASE (R20, R39). -/
  | release (p : Port)
  /-- The table engine takes a READ (R40). -/
  | read (p : Port)
  /-- The table engine takes a READ_NOW (R42). -/
  | readNow (p : Port)
  /-- The table engine takes a WRITE (R44). -/
  | write (p : Port)
  /-- The table engine takes a SET_REGION (R51). -/
  | setRegion (p : Port)
  /-- The table engine takes a GET_REGION (R52). -/
  | getRegion (p : Port)
  /-- The table engine takes a SET_CLASS (R53). -/
  | setClass (p : Port)
  /-- The table engine takes a GET_CLASS (R54). -/
  | getClass (p : Port)
  /-- The table engine takes a CLEAR_ALL (R38). -/
  | clearAll (p : Port)
  /-- A CMD write that carries the code DISMISS and this operand (R30). -/
  | dismiss (v : Via) (operand : Byte)
  /-- The table engine takes a command whose code names no command (R28). -/
  | badCommand (p : Port)
  /-- The table engine takes the start of the granted access (R24). -/
  | accessStart
  /-- BACK_N is seen deasserted (R133). -/
  | beatRelease
  /-- BACK_N is seen asserted with this word on BD (R133). -/
  | beatAcknowledge (bd : Word)
  /-- ACCESS_TIME of a self-paced beat has passed with this word on BD (R132). -/
  | selfPacedBeatEnd (bd : Word)
  /-- The timeout of a device-paced beat expires (R134). -/
  | beatTimeout
  /-- The table engine takes the completion of the access (R25). -/
  | accessCompletion
  /-- CLK runs for this many periods; every 25th gives a 1 µs tick and every 1000th of those a 1 ms tick (R56). -/
  | timebaseTick (periods : Nat)
  /-- The scan engine takes the expiry of a class timer (R57). -/
  | classTimerExpiry (c : ClassNo)
  /-- The scan engine chooses its next work (R71). -/
  | scanChoose
  /-- The table engine takes the scan engine's visit request (R62). -/
  | visit
  /-- A pin ATN changes to this level, true for high (R141). -/
  | atnEvent (line : LineNo) (high : Bool)
  /-- An asserted level-mode line sets its region's cleared flag again (R143). -/
  | attentionFlagSetAgain (line : LineNo)
  /-- A write to ATTN_CONFIG_n (R145). -/
  | attnConfigWrite (v : Via) (n : Fin 4) (w : Word)
  /-- A write to ATTN_STATE (R147). -/
  | edgeSeenClear (v : Via) (w : Word)
  /-- A write to CLASS_STATE (R60). -/
  | overrunClear (v : Via) (w : Word)
  /-- A word read from CLAIM (R154). -/
  | claim (v : Via)
  /-- A write to CLAIM_LEVEL (R156). -/
  | claimLevel (v : Via) (w : Word)
  /-- A write to ACK (R158). -/
  | ack (v : Via) (w : Word)
  /-- A write to LEVEL_MASK (R150). -/
  | levelMask (v : Via) (w : Word)
  /-- A write to LEVEL_TYPE (R150). -/
  | levelType (v : Via) (w : Word)
  /-- A write to LEVEL_ORDER_LO (R151). -/
  | levelOrderLo (v : Via) (w : Word)
  /-- A write to LEVEL_ORDER_HI (R151). -/
  | levelOrderHi (v : Via) (w : Word)
  /-- A CONTROL write with SCAN_RUN 1 and WARM 0, and these values of NOTIFY_EN and DONE_INT (R74, R168). -/
  | scanRunSet (v : Via) (notifyEn doneInt : Bool)
  /-- A CONTROL write with SCAN_RUN 0 and WARM 0 (R73, R168). -/
  | scanRunClear (v : Via) (notifyEn doneInt : Bool)
  /-- A CONTROL write that sets or clears NOTIFY_EN, with WARM 0 (R159, R168). -/
  | notifyEn (v : Via) (on : Bool) (scanRun doneInt : Bool)
  /-- A CONTROL write that sets or clears the port's DONE_INT, with WARM 0 (R160, R168). -/
  | doneInt (v : Via) (on : Bool) (scanRun notifyEn : Bool)
  /-- A CONTROL write with WARM 1 (R13, R168). -/
  | warm (v : Via) (scanRun notifyEn doneInt : Bool)
  /-- A STATUS write with 1 at ORDER_ERR and this value at COLLISION (R169). -/
  | orderErrClear (v : Via) (collision : Bool)
  /-- A STATUS write with 1 at COLLISION and this value at ORDER_ERR (R169). -/
  | collisionClear (v : Via) (orderErr : Bool)
  /-- A word read from BLK_DATA (R167). -/
  | blkDataRead (v : Via)
  /-- A word written to BLK_DATA (R167). -/
  | blkDataWrite (v : Via) (w : Word)
  /-- The pointer byte of an I2C write transaction to this target address (R165). -/
  | pointerWrite (target : BitVec 7) (pointer : Byte)
  /-- A write to a register with no behaviour of its own (R166). -/
  | registerWrite (v : Via) (addr : BitVec 7) (w : Word)
  /-- Power-on or RESET_N, with the level of MADR sampled at its end and whether SCS_N is low (R177, R164, R165). -/
  | coldReset (madrHigh scsLow : Bool)
  /-- The verify-pass read ends (R179). -/
  | verifyPass (r : EepromRead)
  /-- The header transaction of the apply pass ends (R180). -/
  | loadHeader (r : EepromRead)
  /-- A region record transaction ends (R180). -/
  | loadRegionRecord (r : EepromRead)
  /-- A point record transaction ends (R180). -/
  | loadPointRecord (r : EepromRead)
  /-- The checksum transaction ends (R180). -/
  | loadChecksum (r : EepromRead)
  /-- A CMD write (R28). -/
  | cmdWrite (v : Via) (w : Word)
  /-- The first byte of an SPI transfer (R164). -/
  | commandByte (b : Byte)
  /-- SCS_N rises (R164). -/
  | transferEnd
  deriving DecidableEq, Repr

end Sys2Proof
end

