-- ==== Sys2Proof/Decode.lean ====
section
/-! DEFINITION. No row of the table gives its command bits, so no word spells one. -/

namespace Sys2Proof

/-- The command a word spells by the table's bits. The table gives no row any bits (its rows have no "fixed" and empty
"fields"), so every word spells none. -/
def decodeTableWord (_nbits _w : Nat) : Option Instr := none

end Sys2Proof
end

