-- ==== Sys2Proof/Machine/Bits.lean ====
section
/-! DEFINITION. Bit fields, word pairs and fixed-size arrays: the plain operations every layout of chapter 9 is written with. -/

namespace Sys2Proof.Machine

/-- Bits 31 to 16 of a 32-bit quantity, its first word in every format (R171). -/
def hiWord (v : Long) : Word := v.extractLsb' 16 16

/-- Bits 15 to 0 of a 32-bit quantity, its second word (R171). -/
def loWord (v : Long) : Word := v.extractLsb' 0 16

/-- The 32-bit quantity of a first and a second word (R171). -/
def longOf (hi lo : Word) : Long := hi.setWidth 32 <<< 16 ||| lo.setWidth 32

/-- Bits 15 to 8 of a word. -/
def hiByte (w : Word) : Byte := w.extractLsb' 8 8

/-- Bits 7 to 0 of a word. -/
def loByte (w : Word) : Byte := w.extractLsb' 0 8

/-- The word of a high and a low byte. -/
def wordOf (hi lo : Byte) : Word := hi.setWidth 16 <<< 8 ||| lo.setWidth 16

/-- The 24-bit backplane address of bits 23 to 16 and bits 15 to 0 (R173, R175). -/
def addressOf (hi : Byte) (lo : Word) : BitVec 24 := hi.setWidth 24 <<< 16 ||| lo.setWidth 24

/-- Bits `pos` to `pos + len - 1` of a word, as a number. -/
def field (w : Word) (pos len : Nat) : Nat := (w.extractLsb' pos len).toNat

/-- Bit `pos` of a word. -/
def flag (w : Word) (pos : Nat) : Bool := w.getLsbD pos

/-- The number `n`, placed from bit `pos` of a word upward. -/
def place (pos : Nat) (n : Nat) : Word := BitVec.ofNat 16 n <<< pos

/-- The flag `b` at bit `pos` of a word. -/
def bitAt (pos : Nat) (b : Bool) : Word := place pos b.toNat

/-- Nibble `i` of a word: bits 4i + 3 to 4i (R172). -/
def nibble (w : Word) (i : Nat) : Nat := field w (4 * i) 4

/-- The array of length `n` whose entry `i` is `f i`. -/
def tabulate {α : Type} (n : Nat) (f : Nat → α) : Vector α n :=
  ⟨((List.range n).map f).toArray, by simp⟩

/-- The array with `f` applied to every entry. -/
def mapAll {α β : Type} {n : Nat} (f : α → β) (v : Vector α n) : Vector β n :=
  ⟨(v.toList.map f).toArray, by simp⟩

/-- The positions of a flag array as the low bits of a word, entry 0 at bit 0. -/
def flagsWord (fs : List Bool) : Word :=
  fs.foldr (fun b w => w <<< 1 ||| bitAt 0 b) 0

/-- A number put into a strictly ascending list at its place, at most once (R102, R148). -/
def insertAsc {n : Nat} (x : Fin n) : List (Fin n) → List (Fin n)
  | [] => [x]
  | y :: ys => if x < y then x :: y :: ys else if x = y then y :: ys else y :: insertAsc x ys

end Sys2Proof.Machine
end

