-- ==== Sys2Proof/Config.lean ====
section
/-! DEFINITION. What the part fixes: identification words and the ratios of its timebase. The spec leaves no result of any command open, so there is no free value here. -/

namespace Sys2Proof.Config

/-- IDENT reads 0x6140 (R172). -/
def ident : Word := 0x6140

/-- REVISION reads 0x0001 (R172). -/
def revision : Word := 0x0001

/-- "a 1 µs tick, one in every 25 periods of CLK" (R56). -/
def clksPerMicrosecond : Nat := 25

/-- "a 1 ms tick, one in every 1000 µs ticks" (R56). -/
def microsecondsPerMillisecond : Nat := 1000

/-- A device-paced beat is bounded by "TIMEOUT × 8 ticks" of the 1 µs tick (R133). -/
def ticksPerTimeoutUnit : Nat := 8

/-- "the EEPROM answers at 7-bit address 0x50" (R178). -/
def eepromAddress : BitVec 7 := 0x50

/-- The I2C target address is 0x4C when MADR is low and 0x4D when it is high (R165). -/
def i2cAddress (madrHigh : Bool) : BitVec 7 := if madrHigh then 0x4D else 0x4C

/-- PROBE is set to 7 when a point becomes FAULTED and at each failed probe (R9). -/
def probeReload : Nat := 7

/-- MISMATCHES and OVERRUN_COUNT saturate at 255 (R1, R55). -/
def countMax : Nat := 255

/-- Word 0 of a configuration image (R176). -/
def imageSignature : Word := 0x61C4

/-- Word 1 of a configuration image (R176). -/
def imageVersion : Word := 1

/-- Word 0 of a blank EEPROM (R179). -/
def blankWord : Word := 0xFFFF

end Sys2Proof.Config
end

