-- ==== Sys2Proof/Machine/State.lean ====
section
/-! DEFINITION. The state of the 6140 as plain data, block by block as the spec's chapters own it, and the state right after a cold reset. -/

namespace Sys2Proof.Machine

/-- Reasons to stop: none. The spec describes no event that stops the part, so no meaning ever faults. -/
inductive Fault
  deriving DecidableEq, Repr

/-- Reasons to refuse a command. -/
inductive Refusal where
  /-- Raised by an arm of exec whose command has no meaning yet; safe, since no claim about it can be proved. No arm
  raises it. -/
  | notModelled (mnemonic : String)
  deriving DecidableEq, Repr

/-! ### The point table (chapter 1) -/

/-- KIND (R1). -/
inductive Kind where
  | input | output | block
  deriving DecidableEq, Repr

/-- WIDTH (R1). -/
inductive Width where
  | w8 | w16 | w32
  deriving DecidableEq, Repr

/-- STATE: lifecycle and health in one (section 1.3). -/
inductive Health where
  | free | unread | active | stale | faulted | retiring
  deriving DecidableEq, Repr

/-- ALARM (R1, R87). -/
inductive Alarm where
  | normal | low | high
  deriving DecidableEq, Repr

/-- IN_FLIGHT (R1, R24). -/
inductive InFlight where
  | none | read | write
  deriving DecidableEq, Repr

/-- CLASS, and the chain it names: one of the four classes, or NONE for the UNSCHEDULED chain (R1, R14). -/
abbrev ClassSel := Option ClassNo

/-- A point record (R1). NEXT is none for END; HOLDER is none for NONE. -/
structure Point where
  state : Health
  kind : Kind
  width : Width
  signed : Bool
  region : RegionNo
  offset : BitVec 24
  cls : ClassSel
  level : Level
  next : Option PointNo
  attnRead : Bool
  verify : Bool
  limits : Bool
  prefixed : Bool
  low : Long
  high : Long
  hyst : Word
  deadband : Word
  staleAt : Nat
  faultAt : Nat
  fails : Nat
  probe : Nat
  blockLen : Nat
  segments : List SegNo
  lastLen : Nat
  value : Long
  reference : Long
  shadow : Long
  alarm : Alarm
  mismatches : Nat
  causeEn : Byte
  causes : Byte
  holder : Option Port
  inFlight : InFlight
  redefined : Bool
  writeAgain : Bool
  deriving DecidableEq, Repr

/-- The values a FREE record holds (R2). -/
def Point.free : Point where
  state := .free
  kind := .input
  width := .w8
  signed := false
  region := 0
  offset := 0
  cls := some 0
  level := 0
  next := none
  attnRead := false
  verify := false
  limits := false
  prefixed := false
  low := 0
  high := 0
  hyst := 0
  deadband := 0
  staleAt := 0
  faultAt := 0
  fails := 0
  probe := 0
  blockLen := 0
  segments := []
  lastLen := 0
  value := 0
  reference := 0
  shadow := 0
  alarm := .normal
  mismatches := 0
  causeEn := 0
  causes := 0
  holder := none
  inFlight := .none
  redefined := false
  writeAgain := false

/-- A chain's HEAD, TAIL and LENGTH (R14); none is END. -/
structure Chain where
  head : Option PointNo
  tail : Option PointNo
  length : Nat
  deriving DecidableEq, Repr

/-- An empty chain (R14). -/
def Chain.empty : Chain := ⟨none, none, 0⟩

/-! ### Command slots and ports (chapters 2, 8 and 9) -/

/-- The result codes of R31 and R172. -/
inductive ResultCode where
  | ok | badCommand | badPoint | notFree | notDefined | held | badField | noRegion | noSpace | isProtected
  | busFail | redefined | retired | aborted
  deriving DecidableEq, Repr

/-- The phase of a busy command (R32). WAIT_FREE carries the RETIRING point it waits for and, for CLEAR_ALL, the
number of points retired (R38). -/
inductive CmdPhase where
  | queued | waitPoint | waitGrant | waitAccess | waitWrite
  | waitFree (p : PointNo) (retired : Nat)
  deriving DecidableEq, Repr

/-- What a slot holds while BUSY (R27): the code, the operand, the captured parameters and the phase. -/
structure Command where
  code : Byte
  operand : Byte
  params : Vector Word 16
  phase : CmdPhase
  deriving DecidableEq, Repr

/-- The STATE of a slot (R27). -/
inductive SlotState where
  | idle
  | busy (c : Command)
  | done
  deriving DecidableEq, Repr

/-- A command slot (R27). -/
structure Slot where
  state : SlotState
  result : ResultCode
  area : Vector Word 64
  deriving DecidableEq, Repr

/-- What belongs to one port (R27, R151, R155, R156, R160, R167). `stagedLo` is its staged copy of LEVEL_ORDER_LO;
`sent` is the word its last read returned (R164, R165), the model's own record of what the port shifts out. -/
structure PortState where
  params : Vector Word 16
  blkAddr : BitVec 7
  collision : Bool
  doneInt : Bool
  slot : Slot
  claimCauses : Word
  claimValue : Long
  claimLevel : Option Level
  stagedLo : Word
  sent : Word
  deriving DecidableEq, Repr

/-- A port after a cold reset (R27, R151, R155, R156, R160, R167). -/
def PortState.reset : PortState where
  params := Vector.replicate 16 0
  blkAddr := 0
  collision := false
  doneInt := false
  slot := { state := .idle, result := .ok, area := Vector.replicate 64 0 }
  claimCauses := 0
  claimValue := 0
  claimLevel := none
  stagedLo := 0x3210
  sent := 0

/-- The SPI transfer of the primary port (R164): none in progress; in progress with the direction (true for read) and
register its command byte fixed; or abandoned by a cold reset until SCS_N rises. -/
inductive Spi where
  | ready
  | active (read : Bool) (addr : BitVec 7)
  | abandoned
  deriving DecidableEq, Repr

/-- What the part drives on SDO (R164): nothing, low, or a word it shifts out. In a transfer that a cold reset abandoned the
spec states no level, and the model names none (log 26). -/
inductive Sdo where
  | undriven
  | low
  | word (w : Word)
  | unstated
  deriving DecidableEq, Repr

/-! ### The scan engine (chapter 3) -/

/-- What the scan engine holds for one class (R55); `inPass` is the pass state, a cursor of none is END. -/
structure ClassState where
  period : Word
  remaining : Word
  inPass : Bool
  cursor : Option PointNo
  overrunCount : Nat
  overrun : Bool
  deriving DecidableEq, Repr

/-- A class after a cold reset (R55). -/
def ClassState.reset : ClassState := ⟨0, 0, false, none, 0, false⟩

/-- What a visit request names: a class in pass or the region swept (R61). -/
inductive ScanWork where
  | pass (c : ClassNo)
  | sweep (r : RegionNo)
  deriving DecidableEq, Repr

/-- The scan engine's request state (R55, R61). -/
inductive ScanReq where
  | free
  | visiting (w : ScanWork)
  | requested
  deriving DecidableEq, Repr

/-- The scan engine (R55) with SCAN_RUN. A sweep of none is IDLE. -/
structure Scan where
  run : Bool
  classes : Vector ClassState 4
  pendingFlags : Vector Bool 8
  sweep : Option RegionNo
  sweepCursor : Nat
  req : ScanReq
  deriving DecidableEq, Repr

/-- The scan engine after a cold reset (R55). -/
def Scan.reset : Scan where
  run := false
  classes := Vector.replicate 4 ClassState.reset
  pendingFlags := Vector.replicate 8 false
  sweep := none
  sweepCursor := 0
  req := .free

/-! ### The backplane engine (chapter 6) -/

/-- ORDER (R118). -/
inductive ByteOrder where
  | lowFirst | highFirst
  deriving DecidableEq, Repr

/-- PACING (R118). -/
inductive Pacing where
  | selfPaced | device
  deriving DecidableEq, Repr

/-- A region record (R118). -/
structure Region where
  enable : Bool
  base : BitVec 24
  sizeCode : BitVec 5
  readOnly : Bool
  primaryOnly : Bool
  order : ByteOrder
  pacing : Pacing
  accessTime : BitVec 6
  timeout : Byte
  deriving DecidableEq, Repr

/-- A region record after a cold reset (R118). -/
def Region.reset : Region := ⟨false, 0, 0, false, false, .lowFirst, .selfPaced, 0, 0⟩

/-- The requesters of the backplane engine (R121) and, but for its own reports, of the table engine (R4). -/
inductive Requester where
  | scan
  | slot (p : Port)
  deriving DecidableEq, Repr

/-- A waiting request: a point number, and whether it serves a WRITE command (R122). -/
structure Request where
  point : PointNo
  forWrite : Bool
  deriving DecidableEq, Repr

/-- The request table (R121). -/
structure Entries where
  scan : Option Request
  primary : Option Request
  maint : Option Request
  deriving DecidableEq, Repr

/-- What the engine holds of an access from its grant on (R121). `serving` is false once the slot's command that asked
for the access has completed otherwise: the access then completes no command of that slot (R32, R125). -/
structure Grant where
  point : PointNo
  requester : Requester
  forWrite : Bool
  serving : Bool
  deriving DecidableEq, Repr

/-- The kinds of access (R24). -/
inductive AccessKind where
  | read | write | writeVerify | blockRead
  deriving DecidableEq, Repr

/-- Where a beat stands (R132, R133): a self-paced beat, or the release or acknowledge stage of a device-paced one. -/
inductive Stage where
  | timed | release | acknowledge
  deriving DecidableEq, Repr

/-- The access of the phases RUNNING and REPORTING (R121): everything fixed at its start (R24, R110, R126), and how far it has come. `beat` is the
position of the beat being run, and once it is REPORTING of the beat after the last that succeeded; `clks` and `ticks` count the CLK periods and 1 µs ticks of that beat; `got` is the data
gathered by read and read-back beats; `announced` the count word's low byte (R112); `staged` and `truncated` the
staging buffer, its kept count being the length of `staged` (R114). -/
structure Access where
  kind : AccessKind
  region : RegionNo
  cap : Region
  width : Width
  offset : BitVec 24
  blockLen : Nat
  prefixed : Bool
  driven : Long
  beat : Nat
  stage : Stage
  clks : Nat
  ticks : Nat
  got : Long
  announced : Nat
  staged : List Word
  truncated : Bool
  deriving DecidableEq, Repr

/-- The outcome of an access (R82). -/
inductive Outcome where
  | ok | noRegion | isProtected | timeout
  deriving DecidableEq, Repr

/-- The delivered words of a block read, their number being the delivered count, and the truncation indication (R78). -/
structure BlockData where
  words : List Word
  truncated : Bool
  deriving DecidableEq, Repr

/-- A completion (R78); its point and requester are those of the grant it stands beside. -/
structure Completion where
  kind : AccessKind
  outcome : Outcome
  raw : Option Long
  driven : Option Long
  readBack : Option Long
  block : Option BlockData
  deriving DecidableEq, Repr

/-- The phase of the backplane engine (R121). -/
inductive BusPhase where
  | idle
  | granted (g : Grant)
  | running (g : Grant) (a : Access)
  | reporting (g : Grant) (a : Access) (c : Completion)
  deriving DecidableEq, Repr

/-- The backplane outputs (R131): BA, the chip select asserted, the lane enables and strobes (true for asserted, pin
low), and BD where the part drives it. -/
structure Pins where
  ba : BitVec 24
  bcs : Option RegionNo
  ble : Bool
  bhe : Bool
  brd : Bool
  bwr : Bool
  bd : Option Word
  deriving DecidableEq, Repr

/-- The backplane in its idle state with this address on BA (R131). -/
def Pins.idleAt (ba : BitVec 24) : Pins := ⟨ba, none, false, false, false, false, none⟩

/-- The backplane engine (R121) with its pins (R131). -/
structure Bus where
  regions : Vector Region 8
  entries : Entries
  lastGranted : Requester
  phase : BusPhase
  pins : Pins
  deriving DecidableEq, Repr

/-- The backplane engine after a cold reset (R118, R121, R131). -/
def Bus.reset : Bus where
  regions := Vector.replicate 8 Region.reset
  entries := ⟨none, none, none⟩
  lastGranted := .slot .maint
  phase := .idle
  pins := Pins.idleAt 0

/-! ### The attention unit (chapter 7) -/

/-- MODE of an attention line (R140). -/
inductive LineMode where
  | off | rise | fall | high | low
  deriving DecidableEq, Repr

/-- An attention line (R140); `live` is true for high. -/
structure Line where
  mode : LineMode
  region : RegionNo
  live : Bool
  edgeSeen : Bool
  deriving DecidableEq, Repr

/-! ### The notification unit (chapter 8) -/

/-- The notification unit (R148, R150, R151, R159). Bit v of `mask` set is level v open; bit v of `type` set is ACK. -/
structure Notify where
  sets : Vector (List PointNo) 8
  mask : Byte
  type : Byte
  order : Vector Level 8
  orderErr : Bool
  notifyEn : Bool
  deriving DecidableEq, Repr

/-- The level order 0 to 7 (R151). -/
def Notify.orderReset : Vector Level 8 := #v[0, 1, 2, 3, 4, 5, 6, 7]

/-- The notification unit after a cold reset (R148, R150, R151, R159). -/
def Notify.reset : Notify where
  sets := Vector.replicate 8 []
  mask := 0
  type := 0
  order := Notify.orderReset
  orderErr := false
  notifyEn := false

/-! ### The boot loader and the timebase (chapters 10 and 3) -/

/-- The load state (R177). LOADING is set until it is DONE. -/
inductive LoadState where
  | verify | apply | done
  deriving DecidableEq, Repr

/-- The boot loader (R177, R179, R180). `regions` and `points` are the R and P kept by the verify pass; `headerDone`,
`regionsDone` and `pointsDone` say how far the apply pass has come; `sum` is its running sum. -/
structure Loader where
  state : LoadState
  fail : Bool
  partialLoad : Bool
  rejects : Nat
  regions : Nat
  points : Nat
  headerDone : Bool
  regionsDone : Nat
  pointsDone : Nat
  sum : Word
  startScanRun : Bool
  startNotifyEn : Bool
  deriving DecidableEq, Repr

/-- The boot loader after a cold reset (R177). -/
def Loader.reset : Loader := ⟨.verify, false, false, 0, 0, 0, false, 0, 0, 0, false, false⟩

/-- The timebase's two counts (R56): CLK periods since the last 1 µs tick, 1 µs ticks since the last 1 ms tick. -/
structure Timebase where
  clk : Nat
  us : Nat
  deriving DecidableEq, Repr

/-! ### The part -/

/-- Everything the spec gives the part, and the queue of events waiting to be taken, first in, first out. -/
structure State where
  points : Vector Point 256
  chains : Vector Chain 5
  freeSegs : List SegNo
  segWords : Vector (Vector Word 8) 96
  lastTaken : Requester
  primary : PortState
  maint : PortState
  spi : Spi
  sdo : Sdo
  pointer : BitVec 7
  i2cAddr : BitVec 7
  i2cWriteOpen : Bool
  scan : Scan
  bus : Bus
  backAsserted : Bool
  lines : Vector Line 8
  notify : Notify
  loader : Loader
  timebase : Timebase
  pending : List Instr
  deriving DecidableEq, Repr

/-- The part right after a cold reset by power-on, every block at its cold reset values (R177), with nothing in the
queue. Input pins at power-on are DESIGN CHOICE (log 4): attention lines low, BACK_N deasserted, MADR low, SCS_N high. -/
def State.reset : State where
  points := Vector.replicate 256 Point.free
  chains := Vector.replicate 5 Chain.empty
  freeSegs := List.finRange 96
  segWords := Vector.replicate 96 (Vector.replicate 8 0)
  lastTaken := .scan
  primary := PortState.reset
  maint := PortState.reset
  spi := .ready
  sdo := .undriven
  pointer := 0
  i2cAddr := Config.i2cAddress false
  i2cWriteOpen := false
  scan := Scan.reset
  bus := Bus.reset
  backAsserted := false
  lines := Vector.replicate 8 ⟨.off, 0, false, false⟩
  notify := Notify.reset
  loader := Loader.reset
  timebase := ⟨0, 0⟩
  pending := []

end Sys2Proof.Machine
end

