-- ==== Sys2Proof/Machine/Operands.lean ====
section
/-! DEFINITION. The formats software sees (section 9.7): command and result codes, register addresses, the definition block with the checks of R3 that need no other state, and the region record with the checks of R51. -/

namespace Sys2Proof.Machine

/-! ### Command and result codes (R172) -/

/-- What a command code names. -/
inductive CmdName where
  | define | modify | retire | hold | release | read | readNow | write
  | setRegion | getRegion | setClass | getClass | clearAll | dismiss | unknown
  deriving DecidableEq, Repr

/-- The command codes (R172): "Every other code completes BAD_COMMAND". -/
def CmdName.ofCode (code : Byte) : CmdName :=
  match code.toNat with
  | 0x01 => .define
  | 0x02 => .modify
  | 0x03 => .retire
  | 0x04 => .hold
  | 0x05 => .release
  | 0x06 => .read
  | 0x07 => .readNow
  | 0x08 => .write
  | 0x09 => .setRegion
  | 0x0A => .getRegion
  | 0x0B => .setClass
  | 0x0C => .getClass
  | 0x0D => .clearAll
  | 0x0F => .dismiss
  | _ => .unknown

/-- The code of DISMISS (R172). -/
def dismissCode : Byte := 0x0F

/-- The result codes as numbers (R172). -/
def ResultCode.toNat : ResultCode → Nat
  | .ok => 0x00
  | .badCommand => 0x01
  | .badPoint => 0x02
  | .notFree => 0x03
  | .notDefined => 0x04
  | .held => 0x05
  | .badField => 0x06
  | .noRegion => 0x07
  | .noSpace => 0x08
  | .isProtected => 0x09
  | .busFail => 0x0A
  | .redefined => 0x0B
  | .retired => 0x0C
  | .aborted => 0x0D

/-! ### Register addresses (R172) -/

namespace Reg
/-- 0x02 -/
def status : BitVec 7 := 0x02
/-- 0x03 -/
def control : BitVec 7 := 0x03
/-- 0x04 -/
def cmd : BitVec 7 := 0x04
/-- 0x05 -/
def blkAddr : BitVec 7 := 0x05
/-- 0x06 -/
def blkData : BitVec 7 := 0x06
/-- 0x08 -/
def levelMask : BitVec 7 := 0x08
/-- 0x09 -/
def levelType : BitVec 7 := 0x09
/-- 0x0A -/
def levelOrderLo : BitVec 7 := 0x0A
/-- 0x0B -/
def levelOrderHi : BitVec 7 := 0x0B
/-- 0x0C -/
def claim : BitVec 7 := 0x0C
/-- 0x10 -/
def ack : BitVec 7 := 0x10
/-- 0x11 -/
def claimLevel : BitVec 7 := 0x11
/-- ATTN_CONFIG_n: 0x12 to 0x15. -/
def attnConfig (n : Fin 4) : BitVec 7 := BitVec.ofNat 7 (0x12 + n.val)
/-- 0x16 -/
def attnState : BitVec 7 := 0x16
/-- 0x18 -/
def classState : BitVec 7 := 0x18
end Reg

/-! ### Codes of the record's fields (R173, R174) -/

/-- KIND code (R173). -/
def Kind.code : Kind → Nat
  | .input => 0
  | .output => 1
  | .block => 2

/-- KIND from its code; code 3 names no kind (R173). -/
def Kind.ofCode : Nat → Option Kind
  | 0 => some .input
  | 1 => some .output
  | 2 => some .block
  | _ => none

/-- WIDTH code (R173). -/
def Width.code : Width → Nat
  | .w8 => 0
  | .w16 => 1
  | .w32 => 2

/-- WIDTH from its code; code 3 names no width (R173). -/
def Width.ofCode : Nat → Option Width
  | 0 => some .w8
  | 1 => some .w16
  | 2 => some .w32
  | _ => none

/-- WIDTH in bits. -/
def Width.bits : Width → Nat
  | .w8 => 8
  | .w16 => 16
  | .w32 => 32

/-- WIDTH/8, the bytes of an access of an INPUT or OUTPUT point (R3). -/
def Width.bytes : Width → Nat
  | .w8 => 1
  | .w16 => 2
  | .w32 => 4

/-- CLASS code: 0 to 3, or 4 for NONE (R173). -/
def classCode : ClassSel → Nat
  | some c => c.val
  | none => 4

/-- CLASS from its code; codes 5 to 7 name no class (R173). -/
def classOfCode : Nat → Option ClassSel
  | 0 => some (some 0)
  | 1 => some (some 1)
  | 2 => some (some 2)
  | 3 => some (some 3)
  | 4 => some none
  | _ => none

/-- STATE code (R174). -/
def Health.code : Health → Nat
  | .free => 0
  | .unread => 1
  | .active => 2
  | .stale => 3
  | .faulted => 4
  | .retiring => 5

/-- HOLDER code (R174). -/
def holderCode : Option Port → Nat
  | none => 0
  | some .primary => 1
  | some .maint => 2

/-- IN_FLIGHT code (R174). -/
def InFlight.code : InFlight → Nat
  | .none => 0
  | .read => 1
  | .write => 2

/-- ALARM code (R174). -/
def Alarm.code : Alarm → Nat
  | .normal => 0
  | .low => 1
  | .high => 2

/-- A point number, or 0x100 for END (R174). -/
def pointOrEnd : Option PointNo → Nat
  | some p => p.val
  | none => 0x100

/-- "UNREAD, ACTIVE, STALE or FAULTED": the states of a point in use (section 1.3). -/
def Health.isDefined : Health → Bool
  | .unread | .active | .stale | .faulted => true
  | .free | .retiring => false

/-! ### The definition block (R173) -/

/-- The 13 words of a definition block as fields, before any check. -/
structure RawDef where
  kind : Option Kind
  width : Option Width
  signed : Bool
  cls : Option ClassSel
  level : Level
  attnRead : Bool
  verify : Bool
  limits : Bool
  prefixed : Bool
  region : Nat
  offset : BitVec 24
  deadband : Word
  low : Long
  high : Long
  hyst : Word
  staleAt : Nat
  faultAt : Nat
  blockLen : Nat
  causeEn : Byte
  initShadow : Word
  deriving DecidableEq, Repr

/-- The definition block laid out in words 0 to 12 of `w` (R173). -/
def RawDef.ofWords (w : Nat → Word) : RawDef where
  kind := Kind.ofCode (field (w 0) 0 2)
  width := Width.ofCode (field (w 0) 2 2)
  signed := flag (w 0) 4
  cls := classOfCode (field (w 0) 5 3)
  level := ⟨field (w 0) 8 3, BitVec.isLt _⟩
  attnRead := flag (w 1) 0
  verify := flag (w 1) 1
  limits := flag (w 1) 2
  prefixed := flag (w 1) 3
  region := field (w 2) 8 8
  offset := addressOf (loByte (w 2)) (w 3)
  deadband := w 4
  low := longOf (w 5) (w 6)
  high := longOf (w 7) (w 8)
  hyst := w 9
  staleAt := field (w 10) 0 4
  faultAt := field (w 10) 4 4
  blockLen := field (w 10) 8 6
  causeEn := loByte (w 11)
  initShadow := w 12

/-- A definition that has passed the checks of R3 that look at the definition alone, each field the kind does not use
at its FREE value and WIDTH of a BLOCK point at 16 (R3). -/
structure Definition where
  kind : Kind
  width : Width
  signed : Bool
  cls : ClassSel
  level : Level
  attnRead : Bool
  verify : Bool
  limits : Bool
  prefixed : Bool
  region : RegionNo
  offset : BitVec 24
  deadband : Word
  low : Long
  high : Long
  hyst : Word
  staleAt : Nat
  faultAt : Nat
  blockLen : Nat
  causeEn : Byte
  initShadow : Word
  deriving DecidableEq, Repr

/-- A 32-bit value as a number in a point's signedness (R81). -/
def reading (signed : Bool) (v : Long) : Int :=
  if signed then v.toInt else (v.toNat : Int)

/-- WIDTH of the definition as the kind uses it: a BLOCK point takes 16, and WIDTH code 3 names no width of an INPUT
or OUTPUT point (R3, R173). -/
def RawDef.usedWidth (d : RawDef) (k : Kind) : Option Width :=
  match k with
  | .block => some .w16
  | .input | .output => d.width

/-- The bytes of an access, which OFFSET must be a multiple of: WIDTH/8, or 2 for BLOCK (R3). Of a BLOCK point,
whose WIDTH is 16, this is 2 as well. -/
def accessBytes (k : Kind) (w : Width) : Nat :=
  match k with
  | .block => 2
  | .input | .output => w.bytes

/-- Check 1 of R3 on the numbers of a definition: alignment, thresholds, LIMITS and BLOCK_LEN. -/
def RawDef.numbersOk (d : RawDef) (k : Kind) (w : Width) : Bool :=
  decide (d.offset.toNat % accessBytes k w = 0)
    && decide (1 ≤ d.staleAt) && decide (d.staleAt ≤ 15) && decide (1 ≤ d.faultAt) && decide (d.faultAt ≤ 15)
    && decide (d.staleAt ≤ d.faultAt)
    && (match k with
        | .input => !d.limits || decide (reading d.signed d.low ≤ reading d.signed d.high)
        | .output => true
        | .block => decide (1 ≤ d.blockLen) && decide (d.blockLen ≤ 32))

/-- The typed definition of a kind: used fields as given, unused ones at their FREE values (R3). -/
def RawDef.typed (d : RawDef) (k : Kind) (w : Width) (c : ClassSel) (r : RegionNo) : Definition where
  kind := k
  width := w
  signed := match k with | .input => d.signed | .output | .block => false
  cls := c
  level := d.level
  attnRead := match k with | .input | .block => d.attnRead | .output => false
  verify := match k with | .output => d.verify | .input | .block => false
  limits := match k with | .input => d.limits | .output | .block => false
  prefixed := match k with | .block => d.prefixed | .input | .output => false
  region := r
  offset := d.offset
  deadband := match k with | .input => d.deadband | .output | .block => 0
  low := match k with | .input => if d.limits then d.low else 0 | .output | .block => 0
  high := match k with | .input => if d.limits then d.high else 0 | .output | .block => 0
  hyst := match k with | .input => if d.limits then d.hyst else 0 | .output | .block => 0
  staleAt := d.staleAt
  faultAt := d.faultAt
  blockLen := match k with | .block => d.blockLen | .input | .output => 0
  causeEn := d.causeEn
  initShadow := match k with | .output => d.initShadow | .input | .block => 0

/-- Check 1 of R3: the typed definition, or none for BAD_FIELD. For a MODIFY, `mustBe` is the record's KIND. -/
def RawDef.check (d : RawDef) (mustBe : Option Kind) : Option Definition :=
  match d.kind with
  | none => none
  | some k =>
    match d.usedWidth k, d.cls with
    | some w, some c =>
      if h : d.region < 8 then
        if d.numbersOk k w && (mustBe.isNone || mustBe == some k) then some (d.typed k w c ⟨d.region, h⟩) else none
      else none
    | _, _ => none

/-- The segments a BLOCK point of BLOCK_LEN `n` needs: n divided by 8, rounded up (R104). Other kinds, whose
BLOCK_LEN is 0, need none. -/
def segmentsFor (n : Nat) : Nat := (n + 7) / 8

/-- A record with the definition's fields in place of its own (R8, R10); SHADOW and everything the definition does not
carry are left to the caller. -/
def Definition.onto (d : Definition) (r : Point) : Point :=
  { r with
    kind := d.kind, width := d.width, signed := d.signed, region := d.region, offset := d.offset, cls := d.cls,
    level := d.level, attnRead := d.attnRead, verify := d.verify, limits := d.limits, prefixed := d.prefixed,
    low := d.low, high := d.high, hyst := d.hyst, deadband := d.deadband, staleAt := d.staleAt,
    faultAt := d.faultAt, blockLen := d.blockLen, causeEn := d.causeEn }

/-- Word `i` of a record's definition as a snapshot gives it (R41, R173). A BLOCK point shows WIDTH code 1, an OUTPUT
point SHADOW bits 15 to 0 in word 12, and a FREE record thirteen zero words, all by the values the record holds. -/
def definitionWord (r : Point) (i : Nat) : Word :=
  match i with
  | 0 => place 0 r.kind.code ||| place 2 r.width.code ||| bitAt 4 r.signed ||| place 5 (classCode r.cls)
      ||| place 8 r.level.val
  | 1 => bitAt 0 r.attnRead ||| bitAt 1 r.verify ||| bitAt 2 r.limits ||| bitAt 3 r.prefixed
  | 2 => place 8 r.region.val ||| place 0 (r.offset.extractLsb' 16 8).toNat
  | 3 => r.offset.extractLsb' 0 16
  | 4 => r.deadband
  | 5 => hiWord r.low
  | 6 => loWord r.low
  | 7 => hiWord r.high
  | 8 => loWord r.high
  | 9 => r.hyst
  | 10 => place 0 r.staleAt ||| place 4 r.faultAt ||| place 8 r.blockLen
  | 11 => wordOf 0 r.causeEn
  | 12 => match r.kind with
    | .output => loWord r.shadow
    | .input | .block => 0
  | _ => 0

/-- Word `i` of a snapshot's header (R174). -/
def headerWord (r : Point) (i : Nat) : Word :=
  match i with
  | 0 => place 0 r.state.code ||| place 3 r.kind.code ||| place 5 (holderCode r.holder)
      ||| place 7 r.inFlight.code ||| bitAt 9 r.redefined ||| bitAt 10 r.writeAgain ||| place 11 r.alarm.code
  | 1 => wordOf r.causeEn r.causes
  | 2 => place 0 r.fails ||| place 4 r.probe ||| place 8 r.mismatches
  | 3 => place 0 (pointOrEnd r.next) ||| place 10 r.lastLen
  | 4 => hiWord r.value
  | 5 => loWord r.value
  | 6 => match r.kind with
    | .output => hiWord r.shadow
    | .input => hiWord r.reference
    | .block => 0
  | 7 => match r.kind with
    | .output => loWord r.shadow
    | .input => loWord r.reference
    | .block => 0
  | _ => 0

/-! ### The region record (R175) -/

/-- Bytes in a window of SIZE code `k`: 256 × 2^k (R118). -/
def sizeBytes (k : BitVec 5) : Nat := 256 * 2 ^ k.toNat

/-- The region record in words 1 to 5 of `w` (R175). -/
def Region.ofWords (w : Nat → Word) : Region where
  enable := flag (w 1) 0
  base := addressOf (loByte (w 2)) (w 3)
  sizeCode := (w 1).extractLsb' 8 5
  readOnly := flag (w 1) 1
  primaryOnly := flag (w 1) 2
  order := if flag (w 1) 3 then .highFirst else .lowFirst
  pacing := if flag (w 1) 4 then .device else .selfPaced
  accessTime := (w 4).extractLsb' 0 6
  timeout := loByte (w 5)

/-- The field checks of R51: SIZE code at most 16, BASE a multiple of the size, and the timing field PACING uses not
zero. -/
def Region.fieldsOk (r : Region) : Bool :=
  decide (r.sizeCode.toNat ≤ 16) && decide (r.base.toNat % sizeBytes r.sizeCode = 0)
    && (match r.pacing with
        | .selfPaced => r.accessTime != 0
        | .device => r.timeout != 0)

/-- Word `i` of the report of region `n` holding record `r` (R175). -/
def regionWord (n : RegionNo) (r : Region) (i : Nat) : Word :=
  match i with
  | 0 => place 0 n.val
  | 1 => bitAt 0 r.enable ||| bitAt 1 r.readOnly ||| bitAt 2 r.primaryOnly
      ||| bitAt 3 (r.order == .highFirst) ||| bitAt 4 (r.pacing == .device) ||| place 8 r.sizeCode.toNat
  | 2 => wordOf 0 (r.base.extractLsb' 16 8)
  | 3 => r.base.extractLsb' 0 16
  | 4 => place 0 r.accessTime.toNat
  | 5 => wordOf 0 r.timeout
  | _ => 0

/-! ### The words of the configuration image (R176) -/

/-- Words from bytes, the high byte at the lower address (R176); a last odd byte makes no word. -/
def wordsOf : List Byte → List Word
  | hi :: lo :: rest => wordOf hi lo :: wordsOf rest
  | _ => []

/-- The 16-bit sum of words (R176). -/
def sumWords (ws : List Word) : Word := ws.foldl (· + ·) 0

end Sys2Proof.Machine
end

