-- ==== Sys2Proof/Machine/Flags.lean ====
section
/-! DEFINITION. Value processing and point health as functions of one record (chapter 4 and R9): extension, deadband, alarm, read-back, health transition, and the causes each raises. -/

namespace Sys2Proof.Machine

/-! ### Causes (R171) -/

namespace Cause
/-- CHANGE, bit 0 -/
def change : Byte := 0x01
/-- ALARM, bit 1 -/
def alarm : Byte := 0x02
/-- STALE, bit 2 -/
def stale : Byte := 0x04
/-- FAULT, bit 3 -/
def fault : Byte := 0x08
/-- RECOVER, bit 4 -/
def recover : Byte := 0x10
/-- VERIFY, bit 5 -/
def verify : Byte := 0x20
/-- TRUNCATE, bit 6 -/
def truncate : Byte := 0x40
/-- WRITE_FAIL, bit 7 -/
def writeFail : Byte := 0x80
end Cause

/-- A cause set if a condition holds, else the empty set. -/
def causeIf (b : Bool) (c : Byte) : Byte := if b then c else 0

/-! ### From raw bits to a value (R81) -/

/-- The low WIDTH bits of a value, zero-extended: how an OUTPUT point's driven value and read-back are read (R81, R89). -/
def zeroExtended (w : Width) (v : Long) : Long :=
  match w with
  | .w8 => (v.extractLsb' 0 8).setWidth 32
  | .w16 => (v.extractLsb' 0 16).setWidth 32
  | .w32 => v

/-- The low WIDTH bits of a value, sign-extended (R81). -/
def signExtended (w : Width) (v : Long) : Long :=
  match w with
  | .w8 => (v.extractLsb' 0 8).signExtend 32
  | .w16 => (v.extractLsb' 0 16).signExtend 32
  | .w32 => v

/-- The extended raw value of an INPUT point (R81). -/
def extended (signed : Bool) (w : Width) (raw : Long) : Long :=
  if signed then signExtended w raw else zeroExtended w raw

/-! ### Deadband (R86) -/

/-- The exact distance of two values in a point's signedness (R86). -/
def distance (signed : Bool) (a b : Long) : Nat := (reading signed a - reading signed b).natAbs

/-- Whether a good read of an INPUT point raises CHANGE: the point was UNREAD, or the distance of the new VALUE from
REFERENCE exceeds DEADBAND (R86). -/
def changeRaised (r : Point) (new : Long) : Bool :=
  r.state == .unread || decide (r.deadband.toNat < distance r.signed new r.reference)

/-! ### Alarms (R87) -/

/-- The lowest number of a point's range (R87). -/
def lowest (signed : Bool) : Int := if signed then -2147483648 else 0

/-- The highest number of a point's range (R87). -/
def highest (signed : Bool) : Int := if signed then 2147483647 else 4294967295

/-- HIGH − HYST, saturated at the bottom of the range (R87). -/
def highBound (r : Point) : Int := max (lowest r.signed) (reading r.signed r.high - (r.hyst.toNat : Int))

/-- LOW + HYST, saturated at the top of the range (R87). -/
def lowBound (r : Point) : Int := min (highest r.signed) (reading r.signed r.low + (r.hyst.toNat : Int))

/-- The table of R87: the ALARM state after a good read of `new`. -/
def alarmAfter (r : Point) (new : Long) : Alarm :=
  let v := reading r.signed new
  let hi := reading r.signed r.high
  let lo := reading r.signed r.low
  match r.alarm with
  | .normal => if hi < v then .high else if v < lo then .low else .normal
  | .high => if v < lo then .low else if v < highBound r then .normal else .high
  | .low => if hi < v then .high else if lowBound r < v then .normal else .low

/-! ### A record and the causes a step of R83 raises on it -/

/-- A record after a step of a completion's processing, and the causes raised so far. -/
structure Judged where
  point : Point
  raised : Byte
  deriving DecidableEq, Repr

/-- Value processing of a good read of an INPUT point (R85, R86, R87). -/
def judgeInput (r : Point) (raw : Long) : Judged :=
  let new := extended r.signed r.width raw
  let change := changeRaised r new
  let alarm := if r.limits then alarmAfter r new else r.alarm
  { point := { r with value := new, reference := if change then new else r.reference, alarm := alarm }
    raised := causeIf change Cause.change ||| causeIf (alarm != r.alarm) Cause.alarm }

/-- Value processing of a good WRITE: VALUE takes the driven bits (R89). -/
def judgeWrite (r : Point) (driven : Long) : Judged :=
  { point := { r with value := zeroExtended r.width driven }, raised := 0 }

/-- Value processing of a good WRITE_VERIFY: VALUE takes the read-back, and a difference from the driven bits raises
VERIFY and counts in MISMATCHES (R90). -/
def judgeWriteVerify (r : Point) (driven readBack : Long) : Judged :=
  let back := zeroExtended r.width readBack
  let differs := back != zeroExtended r.width driven
  { point := { r with
      value := back
      mismatches := if differs then min Config.countMax (r.mismatches + 1) else r.mismatches }
    raised := causeIf differs Cause.verify }

/-- What a good BLOCK_READ does to the record itself, given the block words before the commit and block word 0 after it
(R92): LAST_LEN, VALUE, CHANGE and TRUNCATE. The words are committed by the caller (R116). -/
def judgeBlock (r : Point) (before : List Word) (d : BlockData) : Judged :=
  let differs := r.state == .unread || decide (d.words.length ≠ r.lastLen) || decide (before.take d.words.length ≠ d.words)
  { point := { r with lastLen := d.words.length, value := (d.words.headD 0).setWidth 32 }
    raised := causeIf differs Cause.change ||| causeIf d.truncated Cause.truncate }

/-! ### Health (R9, R93 to R95) -/

/-- The health transition of a good outcome (R9): ACTIVE, FAILS 0, PROBE 0, and RECOVER from STALE or FAULTED. -/
def goodHealth (r : Point) : Judged :=
  { point := { r with state := .active, fails := 0, probe := 0 }
    raised := causeIf (r.state == .stale || r.state == .faulted) Cause.recover }

/-- The health transition of a failed outcome (R9): a FAULTED point keeps FAILS and takes PROBE 7; any other adds 1 to
FAILS and meets the thresholds, FAULT_AT first. -/
def failedHealth (r : Point) : Judged :=
  if r.state = .faulted then { point := { r with probe := Config.probeReload }, raised := 0 }
  else if r.fails + 1 = r.faultAt then
    { point := { r with state := .faulted, fails := r.fails + 1, probe := Config.probeReload }, raised := Cause.fault }
  else if r.fails + 1 = r.staleAt then
    { point := { r with state := .stale, fails := r.fails + 1 }, raised := Cause.stale }
  else { point := { r with fails := r.fails + 1 }, raised := 0 }

/-- The value processing of a counted completion by the items it carries (R78, R83 step 2). A good completion always
carries the items of its kind; a record it finds without them is left as it is. -/
def judgeValue (r : Point) (before : List Word) (c : Completion) : Judged :=
  match c.kind with
  | .read => match c.raw with
    | some raw => judgeInput r raw
    | none => { point := r, raised := 0 }
  | .write => match c.driven with
    | some d => judgeWrite r d
    | none => { point := r, raised := 0 }
  | .writeVerify => match c.driven, c.readBack with
    | some d, some b => judgeWriteVerify r d b
    | _, _ => { point := r, raised := 0 }
  | .blockRead => match c.block with
    | some d => judgeBlock r before d
    | none => { point := r, raised := 0 }

/-- Whether an access kind is a write (R128). -/
def AccessKind.isWrite : AccessKind → Bool
  | .write | .writeVerify => true
  | .read | .blockRead => false

/-- Steps 2 and 3 of R83 on the record of a counted completion, with the causes they raise: for a good outcome the
value processing and then the good transition, for a failed one WRITE_FAIL of a write (R91) and the failed transition.
The transition reads the state the completion found, which value processing does not change. -/
def judge (r : Point) (before : List Word) (c : Completion) : Judged :=
  match c.outcome with
  | .ok =>
    let v := judgeValue r before c
    let h := goodHealth v.point
    { point := h.point, raised := v.raised ||| h.raised }
  | .noRegion | .isProtected | .timeout =>
    let h := failedHealth r
    { point := h.point, raised := causeIf c.kind.isWrite Cause.writeFail ||| h.raised }

end Sys2Proof.Machine
end

