-- ==== Sys2Proof/Machine/Ops.lean ====
section
/-! DEFINITION. The shared operations: access to the state's parts, chains, segments, causes and notice sets, slots and their completion, the order of the table engine, requests and grants, definitions, retirement, and the pins. -/

namespace Sys2Proof.Machine

namespace State

/-! ### One home for each part -/

/-- The record of point `p`. -/
def point (s : State) (p : PointNo) : Point := s.points[p.val]

/-- The state with record `r` at point `p`. -/
def setPoint (s : State) (p : PointNo) (r : Point) : State := { s with points := s.points.set p.val r }

/-- What belongs to port `p`. -/
def port (s : State) (p : Port) : PortState :=
  match p with
  | .primary => s.primary
  | .maint => s.maint

/-- The state with `x` as port `p`'s own. -/
def setPort (s : State) (p : Port) (x : PortState) : State :=
  match p with
  | .primary => { s with primary := x }
  | .maint => { s with maint := x }

/-- The slot of port `p`. -/
def slot (s : State) (p : Port) : Slot := (s.port p).slot

/-- The state with `x` as port `p`'s slot. -/
def setSlot (s : State) (p : Port) (x : Slot) : State := s.setPort p { s.port p with slot := x }

/-- What the scan engine holds for class `c`. -/
def classState (s : State) (c : ClassNo) : ClassState := s.scan.classes[c.val]

/-- The state with `x` held for class `c`. -/
def setClassState (s : State) (c : ClassNo) (x : ClassState) : State :=
  { s with scan := { s.scan with classes := s.scan.classes.set c.val x } }

/-- The stored record of region `r` (R118). -/
def region (s : State) (r : RegionNo) : Region := s.bus.regions[r.val]

/-- The backplane engine stores a region record, all fields together (R119). -/
def setRegion (s : State) (r : RegionNo) (x : Region) : State :=
  { s with bus := { s.bus with regions := s.bus.regions.set r.val x } }

/-- The index of a chain: classes 0 to 3, then UNSCHEDULED (R14). -/
def chainIndex : ClassSel → Fin 5
  | some c => c.castSucc
  | none => 4

/-- The chain a CLASS names. -/
def chain (s : State) (c : ClassSel) : Chain := s.chains[(chainIndex c).val]

/-- The state with `x` as the chain a CLASS names. -/
def setChain (s : State) (c : ClassSel) (x : Chain) : State := { s with chains := s.chains.set (chainIndex c).val x }

/-- The state with the NEXT of point `p` replaced. -/
def setNext (s : State) (p : PointNo) (n : Option PointNo) : State := s.setPoint p { s.point p with next := n }

/-- LOADING: set until the load state is DONE (R177). -/
def loading (s : State) : Bool := s.loader.state != .done

/-- The state with the backplane engine in phase `ph`. -/
def setPhase (s : State) (ph : BusPhase) : State := { s with bus := { s.bus with phase := ph } }

/-! ### Causes and notice sets (R5, R6, R148, R149) -/

/-- The notice set of level `v`. -/
def noticeSet (s : State) (v : Level) : List PointNo := s.notify.sets[v.val]

/-- The state with `l` as the notice set of level `v`. -/
def setNotice (s : State) (v : Level) (l : List PointNo) : State :=
  { s with notify := { s.notify with sets := s.notify.sets.set v.val l } }

/-- Point `p` enters the notice set of level `v` at its place by number (R148, R149). -/
def enterNotice (s : State) (v : Level) (p : PointNo) : State := s.setNotice v (insertAsc p (s.noticeSet v))

/-- Point `p` leaves the notice set of level `v` (R149). -/
def leaveNotice (s : State) (v : Level) (p : PointNo) : State := s.setNotice v ((s.noticeSet v).filter (· ≠ p))

/-- CAUSES of point `p` becomes `c`. The point enters the notice set of its LEVEL when CAUSES goes from empty to
non-empty and leaves it when CAUSES becomes empty (R5, R149). -/
def setCauses (s : State) (p : PointNo) (c : Byte) : State :=
  let old := s.point p
  let s' := s.setPoint p { old with causes := c }
  if old.causes = 0 then (if c = 0 then s' else s'.enterNotice old.level p)
  else if c = 0 then s'.leaveNotice old.level p else s'

/-- CAUSES of point `p` is emptied, with the leave hand-off where it was non-empty (R6). -/
def emptyCauses (s : State) (p : PointNo) : State := s.setCauses p 0

/-- Raised causes, filtered through CAUSE_EN, are added to CAUSES (R6, R97). -/
def addCauses (s : State) (p : PointNo) (raised : Byte) : State :=
  s.setCauses p ((s.point p).causes ||| (raised &&& (s.point p).causeEn))

/-! ### Chains (R14 to R16) and the scan engine's cursors (R64) -/

/-- Point `p` is appended to the chain of `c` (R15). -/
def appendTo (s : State) (c : ClassSel) (p : PointNo) : State :=
  let ch := s.chain c
  let s := s.setNext p none
  match ch.tail with
  | none => s.setChain c ⟨some p, some p, ch.length + 1⟩
  | some t => (s.setNext t (some p)).setChain c { ch with tail := some p, length := ch.length + 1 }

/-- The member whose NEXT is `p`, found by following NEXT from `from` over at most `fuel` members (R16). -/
def predecessor (s : State) (p : PointNo) : Nat → Option PointNo → Option PointNo
  | 0, _ => none
  | _ + 1, none => none
  | fuel + 1, some q => if (s.point q).next = some p then some q else predecessor s p fuel (s.point q).next

/-- The scan engine takes the hand-off that `p` left the chain of `c` with successor `succ`: a pass of the class whose
cursor is `p` moves it to the successor, and ends when that is END (R64). -/
def cursorUnlink (s : State) (c : ClassSel) (p : PointNo) (succ : Option PointNo) : State :=
  match c with
  | none => s
  | some k =>
    let x := s.classState k
    if x.inPass ∧ x.cursor = some p then
      s.setClassState k { x with inPass := succ.isSome, cursor := succ }
    else s

/-- HEAD, TAIL and the predecessor's NEXT after `p`, whose NEXT is `succ`, leaves the chain of `c` (the table of R16).
-/
def closeGap (s : State) (c : ClassSel) (p : PointNo) (succ : Option PointNo) : State :=
  let ch := s.chain c
  if ch.head = some p then
    if ch.tail = some p then s.setChain c ⟨none, none, ch.length - 1⟩
    else s.setChain c { ch with head := succ, length := ch.length - 1 }
  else
    let pred := s.predecessor p 256 ch.head
    let s := match pred with
      | some q => s.setNext q succ
      | none => s
    s.setChain c { ch with tail := if ch.tail = some p then pred else ch.tail, length := ch.length - 1 }

/-- Point `p` is unlinked from the chain of `c`, and the unlink is handed to the scan engine (R16, R64). -/
def unlinkFrom (s : State) (c : ClassSel) (p : PointNo) : State :=
  let succ := (s.point p).next
  ((s.closeGap c p succ).setNext p none).cursorUnlink c p succ

/-! ### Segments and block words (R100 to R109) -/

/-- The eight words of segment `g` become zero (R101). -/
def zeroSegment (s : State) (g : SegNo) : State :=
  { s with segWords := s.segWords.set g.val (Vector.replicate 8 0) }

/-- The `k` lowest-numbered free segments leave the free list, their words reading zero (R101). The caller gives
`s.freeSegs.take k` to the point. -/
def takeSegments (s : State) (k : Nat) : State :=
  (s.freeSegs.take k).foldl zeroSegment { s with freeSegs := s.freeSegs.drop k }

/-- Segments return to the free list, each at its place (R102). -/
def returnSegments (s : State) (gs : List SegNo) : State :=
  { s with freeSegs := gs.foldl (fun l g => insertAsc g l) s.freeSegs }

/-- Block word `i` of a record: word i modulo 8 of the segment in entry i / 8 of SEGMENTS (R109). -/
def blockWord (s : State) (r : Point) (i : Nat) : Word :=
  match r.segments[i / 8]? with
  | some g => (s.segWords[g.val])[i % 8]'(Nat.mod_lt _ (by decide))
  | none => 0

/-- The block words of a record, BLOCK_LEN in all, in list order (R109). -/
def blockWords (s : State) (r : Point) : List Word := (List.range r.blockLen).map (s.blockWord r)

/-- Word `w` is written into block word `i` of a point with these SEGMENTS (R109, R116). -/
def setBlockWord (s : State) (segs : List SegNo) (i : Nat) (w : Word) : State :=
  match segs[i / 8]? with
  | some g => { s with segWords := s.segWords.set g.val
                         ((s.segWords[g.val]).set (i % 8) w (Nat.mod_lt _ (by decide))) }
  | none => s

/-- Words are written into block words `i`, `i + 1`, and so on. -/
def writeBlockFrom (s : State) (segs : List SegNo) : Nat → List Word → State
  | _, [] => s
  | i, w :: ws => writeBlockFrom (s.setBlockWord segs i w) segs (i + 1) ws

/-- The commit of R116: delivered word i into block word i, and zero into every block word from the delivered count to
BLOCK_LEN − 1. -/
def commitBlock (s : State) (r : Point) (delivered : List Word) : State :=
  s.writeBlockFrom r.segments 0 ((List.range r.blockLen).map fun i => delivered.getD i 0)

/-! ### Snapshots and reports (R41, R54, R175) -/

/-- A result area of 64 words, word k given by `f`. -/
def resultArea (f : Nat → Word) : Vector Word 64 := tabulate 64 f

/-- "All 64 words zero" (R31). -/
def zeroArea : Vector Word 64 := Vector.replicate 64 0

/-- The snapshot of point `p` (R41): header in words 0 to 7, definition in 8 to 20, block words of a BLOCK point from
word 24, and zero elsewhere. -/
def snapshot (s : State) (p : PointNo) : Vector Word 64 :=
  let r := s.point p
  resultArea fun k =>
    if k < 8 then headerWord r k
    else if k < 21 then definitionWord r (k - 8)
    else if k < 24 then 0
    else if k < 56 then (match r.kind with
      | .block => if k - 24 < r.blockLen then s.blockWord r (k - 24) else 0
      | .input | .output => 0)
    else 0

/-- The report of region `n` (R52, R175). -/
def regionReport (s : State) (n : RegionNo) : Vector Word 64 := resultArea (regionWord n (s.region n))

/-- The report of a class, or of the UNSCHEDULED chain with its class items zero (R54). -/
def classReport (s : State) (c : ClassSel) : Vector Word 64 :=
  let ch := s.chain c
  resultArea fun k =>
    match k with
    | 0 => match c with | some n => (s.classState n).period | none => 0
    | 1 => place 0 (pointOrEnd ch.head)
    | 2 => place 0 (pointOrEnd ch.tail)
    | 3 => place 0 ch.length
    | 4 => match c with | some n => bitAt 0 (s.classState n).inPass | none => 0
    | 5 => match c with | some n => place 0 (s.classState n).overrunCount | none => 0
    | 6 => match c with | some n => bitAt 0 (s.classState n).overrun | none => 0
    | _ => 0

/-! ### Slots (R27 to R32) -/

/-- The command a slot holds while BUSY. -/
def busyWith (s : State) (p : Port) : Option Command :=
  match (s.slot p).state with
  | .busy c => some c
  | .idle | .done => none

/-- The command of port `p` completes: result code, result area, and DONE, in one step (R31). -/
def complete (s : State) (p : Port) (code : ResultCode) (area : Vector Word 64) : State :=
  s.setSlot p { state := .done, result := code, area := area }

/-- The command of port `p` completes with a refusal code or RETIRED, its result area zero (R31). -/
def completeZero (s : State) (p : Port) (code : ResultCode) : State := s.complete p code zeroArea

/-- The command of port `p` completes with a snapshot of point `n` as it stands (R31, R41). -/
def completeSnapshot (s : State) (p : Port) (code : ResultCode) (n : PointNo) : State :=
  s.complete p code (s.snapshot n)

/-- The busy command of port `p` enters phase `ph` (R32). -/
def enterPhase (s : State) (p : Port) (ph : CmdPhase) : State :=
  match s.busyWith p with
  | some c => s.setSlot p { s.slot p with state := .busy { c with phase := ph } }
  | none => s

/-- The point number in a command's operand (section 2.1). -/
def operandPoint (c : Command) : PointNo := c.operand.toFin

/-- Whether the slot of port `p` holds a command of this name in this phase for point `n` (R32). -/
def waits (s : State) (p : Port) (name : CmdName) (ph : CmdPhase) (n : PointNo) : Bool :=
  match s.busyWith p with
  | some c => CmdName.ofCode c.code == name && c.phase == ph && operandPoint c == n
  | none => false

/-- The other port. -/
def otherPort : Port → Port
  | .primary => .maint
  | .maint => .primary

/-! ### The order of the table engine (R4) -/

/-- The rotation: the three requesters in cyclic order SCAN, PRIMARY, MAINT, starting after the one given. R4 and R123
rotate in the same cyclic order. -/
def rotationAfter : Requester → List Requester
  | .scan => [.slot .primary, .slot .maint, .scan]
  | .slot .primary => [.slot .maint, .scan, .slot .primary]
  | .slot .maint => [.scan, .slot .primary, .slot .maint]

/-- Whether a requester has a request waiting at the table engine: a slot a QUEUED command (R28), the scan engine a
visit request (R61). -/
def asksTable (s : State) (r : Requester) : Bool :=
  match r with
  | .slot p => match s.busyWith p with
    | some c => c.phase == .queued
    | none => false
  | .scan => match s.scan.req with
    | .visiting _ => true
    | .free | .requested => false

/-- Whether a report of the backplane engine waits at the table engine: a start or a completion (R4). -/
def reportWaits (s : State) : Bool :=
  match s.bus.phase with
  | .granted _ | .reporting _ _ _ => true
  | .idle | .running _ _ => false

/-- The requester whose request the table engine takes next, none while LOADING, while a report waits (which is taken
first), or when nothing waits (R4). -/
def tableTurn (s : State) : Option Requester :=
  if s.loading || s.reportWaits then none else (rotationAfter s.lastTaken).find? s.asksTable

/-! ### Requests and grants (R122 to R124) -/

/-- The request table entry of a requester. -/
def entry (s : State) (r : Requester) : Option Request :=
  match r with
  | .scan => s.bus.entries.scan
  | .slot .primary => s.bus.entries.primary
  | .slot .maint => s.bus.entries.maint

/-- The state with `q` as the request table entry of a requester. -/
def setEntry (s : State) (r : Requester) (q : Option Request) : State :=
  match r with
  | .scan => { s with bus := { s.bus with entries := { s.bus.entries with scan := q } } }
  | .slot .primary => { s with bus := { s.bus with entries := { s.bus.entries with primary := q } } }
  | .slot .maint => { s with bus := { s.bus with entries := { s.bus.entries with maint := q } } }

/-- The request of `r` is granted: its entry empties, `r` becomes the last requester granted, and the start waits at
the table engine (R123). -/
def grantTo (s : State) (r : Requester) (q : Request) : State :=
  let s := s.setEntry r none
  { s with bus := { s.bus with
      lastGranted := r, phase := .granted { point := q.point, requester := r, forWrite := q.forWrite, serving := true } } }

/-- In IDLE the engine grants the first filled entry in the rotation, if there is one (R123). -/
def grantNext (s : State) : State :=
  match s.bus.phase with
  | .idle =>
    match (rotationAfter s.bus.lastGranted).find? (fun r => (s.entry r).isSome) with
    | some r => match s.entry r with
      | some q => s.grantTo r q
      | none => s
    | none => s
  | .granted _ | .running _ _ | .reporting _ _ _ => s

/-- A requester places a request, which an IDLE engine grants at once (R122, R123). -/
def placeRequest (s : State) (r : Requester) (n : PointNo) (forWrite : Bool) : State :=
  (s.setEntry r (some { point := n, forWrite := forWrite })).grantNext

/-- A slot places its own request and its command enters WAIT_GRANT (R42, R45, R46, R47). -/
def requestAccess (s : State) (p : Port) (n : PointNo) (forWrite : Bool) : State :=
  (s.enterPhase p .waitGrant).placeRequest (.slot p) n forWrite

/-- The engine enters IDLE and grants the next waiting request (R123). -/
def busIdle (s : State) : State := (s.setPhase .idle).grantNext

/-- An access the slot of `p` asked for goes on without a command waiting on it (R32, R48, R125). -/
def orphanGrant (p : Port) (g : Grant) : Grant := if g.requester = .slot p then { g with serving := false } else g

/-- The slot of `p` gives up its access: a request in the table is withdrawn, and an access already granted goes on
without a command waiting on it (R32, R48, R124). -/
def abandonAccess (s : State) (p : Port) : State :=
  let s := s.setEntry (.slot p) none
  match s.bus.phase with
  | .idle => s
  | .granted g => s.setPhase (.granted (orphanGrant p g))
  | .running g a => s.setPhase (.running (orphanGrant p g) a)
  | .reporting g a c => s.setPhase (.reporting (orphanGrant p g) a c)

/-! ### Definitions (R3, R8, R10) -/

/-- Check 2 of R3: the region is enabled and OFFSET plus the access length does not exceed its size. -/
def regionFits (s : State) (d : Definition) : Bool :=
  let g := s.region d.region
  g.enable && decide (d.offset.toNat + accessBytes d.kind d.width ≤ sizeBytes g.sizeCode)

/-- The checks of R3 in their order. `held` is the number of segments the point already holds, 0 for a DEFINE; the
pool must supply the rest (R104, R105). -/
def checkDefinition (s : State) (raw : RawDef) (mustBe : Option Kind) (held : Nat) : Except ResultCode Definition :=
  match raw.check mustBe with
  | none => .error .badField
  | some d =>
    if s.regionFits d then
      if segmentsFor d.blockLen - held ≤ s.freeSegs.length then .ok d else .error .noSpace
    else .error .noRegion

/-- An accepted DEFINE of point `n` (R8): segments from the pool, the record from the definition, and the append. -/
def defineCore (s : State) (n : PointNo) (d : Definition) : State :=
  let s := s.emptyCauses n
  let segs := s.freeSegs.take (segmentsFor d.blockLen)
  let s := s.takeSegments (segmentsFor d.blockLen)
  let r := { d.onto Point.free with
    state := .unread, segments := segs, shadow := longOf 0 d.initShadow }
  (s.setPoint n r).appendTo d.cls n

/-- The chain move of a MODIFY: only when CLASS changes (R18). -/
def moveChain (s : State) (n : PointNo) (new : ClassSel) : State :=
  let old := (s.point n).cls
  if new = old then s else (s.unlinkFrom old n).appendTo new n

/-- The SEGMENTS list of point `n` after a MODIFY to BLOCK_LEN `len`: grown at the end from the pool, or shrunk from the
end into it (R105, R106). -/
def resizeSegments (s : State) (n : PointNo) (len : Nat) : State :=
  let held := (s.point n).segments
  let need := segmentsFor len
  if held.length < need then
    let extra := s.freeSegs.take (need - held.length)
    (s.takeSegments (need - held.length)).setPoint n { s.point n with segments := held ++ extra }
  else
    (s.returnSegments (held.drop need)).setPoint n { s.point n with segments := held.take need }

/-- The record of a point after an accepted MODIFY (R10): the definition's fields, UNREAD, FAILS 0, PROBE 0, ALARM
NORMAL, REDEFINED when an access is in flight; for a BLOCK point LAST_LEN and VALUE 0. -/
def modifiedRecord (r : Point) (d : Definition) : Point :=
  let r := { d.onto r with
    state := .unread, fails := 0, probe := 0, alarm := .normal, redefined := r.redefined || r.inFlight != .none }
  match d.kind with
  | .block => { r with lastLen := 0, value := 0 }
  | .input | .output => r

/-- An accepted MODIFY of point `n` (R10, R18, R105, R106): causes emptied, the chain position kept or moved, segments
adjusted, the record's fields, and for a BLOCK point every block word zero. -/
def modifyCore (s : State) (n : PointNo) (d : Definition) : State :=
  let s := (s.emptyCauses n).moveChain n d.cls
  let s := s.resizeSegments n d.blockLen
  let s := s.setPoint n (modifiedRecord (s.point n) d)
  s.commitBlock (s.point n) []

/-! ### Retirement (R11, R12, R48) -/

/-- A point becomes FREE: its segments return to the pool and the record takes the FREE values (R2, R107). -/
def freePoint (s : State) (n : PointNo) : State :=
  let s := s.emptyCauses n
  (s.returnSegments (s.point n).segments).setPoint n Point.free

/-- Whether a phase is one of the four in which R48 ends a command as RETIRED. -/
def endsRetired : CmdPhase → Bool
  | .waitPoint | .waitGrant | .waitAccess | .waitWrite => true
  | .queued | .waitFree _ _ => false

/-- The command of port `p`, if it waits on point `n`, completes RETIRED and gives up its access (R48). -/
def retireWaiter (s : State) (n : PointNo) (p : Port) : State :=
  match s.busyWith p with
  | some c =>
    if endsRetired c.phase && operandPoint c == n then (s.abandonAccess p).completeZero p .retired else s
  | none => s

/-- A point in UNREAD, ACTIVE, STALE or FAULTED is retired: it leaves its chain, its causes are emptied, it becomes
FREE with no access in flight (R11) and RETIRING with one (R12), and the commands waiting on it complete RETIRED
(R48). -/
def retirePoint (s : State) (n : PointNo) : State :=
  let s := (s.unlinkFrom (s.point n).cls n).emptyCauses n
  let s := if (s.point n).inFlight = .none then s.freePoint n
    else s.setPoint n { s.point n with state := .retiring, holder := none, writeAgain := false }
  (s.retireWaiter n .primary).retireWaiter n .maint

/-! ### The scan engine's passes and SCAN_RUN (R73) -/

/-- A class with its pass ended (R63, R73). -/
def endPass (x : ClassState) : ClassState := { x with inPass := false, cursor := none }

/-- Every pass and the sweep in progress end (R73, R75). -/
def endWork (s : State) : State :=
  { s with scan := { s.scan with classes := mapAll endPass s.scan.classes, sweep := none, sweepCursor := 0 } }

/-- The scan engine withdraws what it has waiting: a visit request, or an access request not yet granted. The request
state becomes FREE then; an access granted and not started leaves it REQUESTED until its start is taken (R73, R124). -/
def withdrawScan (s : State) : State :=
  match s.scan.req with
  | .free => s
  | .visiting _ => { s with scan := { s.scan with req := .free } }
  | .requested =>
    match s.entry .scan with
    | some _ =>
      let s := s.setEntry .scan none
      { s with scan := { s.scan with req := .free } }
    | none => s

/-- SCAN_RUN takes a written value: clearing it while set ends the scan engine's work (R73), setting it lets the scan
engine choose (R74), and writing the value it has changes nothing. -/
def writeScanRun (s : State) (on : Bool) : State :=
  if on then { s with scan := { s.scan with run := true } }
  else if s.scan.run then
    let s := (s.endWork).withdrawScan
    { s with scan := { s.scan with run := false } }
  else s

/-- NOTIFY_EN takes a written value (R159). -/
def writeNotifyEn (s : State) (on : Bool) : State := { s with notify := { s.notify with notifyEn := on } }

/-- A class takes a new PERIOD: OVERRUN_COUNT 0, and the timer restarted from the new PERIOD (R53). -/
def restartClass (s : State) (c : ClassNo) (period : Word) : State :=
  s.setClassState c { s.classState c with period := period, remaining := period, overrunCount := 0 }

/-! ### The pending flags and the interrupt line -/

/-- The attention pending flag of region `r` (R67). -/
def pendingFlag (s : State) (r : RegionNo) : Bool := s.scan.pendingFlags[r.val]

/-- The state with the pending flag of region `r` at this value. -/
def setPendingFlag (s : State) (r : RegionNo) (b : Bool) : State :=
  { s with scan := { s.scan with pendingFlags := s.scan.pendingFlags.set r.val b } }

/-- An attention line. -/
def line (s : State) (l : LineNo) : Line := s.lines[l.val]

/-- The state with `x` as attention line `l`. -/
def setLine (s : State) (l : LineNo) (x : Line) : State := { s with lines := s.lines.set l.val x }

/-- Level `v` is open (R150). -/
def isOpen (s : State) (v : Level) : Bool := s.notify.mask.getLsbD v.val

/-- Level `v` is of type ACK (R150). -/
def isAck (s : State) (v : Level) : Bool := s.notify.type.getLsbD v.val

/-- The command-done condition of port `p` (R160). -/
def commandDone (s : State) (p : Port) : Bool := (s.slot p).state == .done && (s.port p).doneInt

/-- INT_N is asserted, driven low, exactly while NOTIFY_EN is set and an open level has a member, or a port's
command-done condition holds (R161). The pin and the INT flag of STATUS are this one value. -/
def intAsserted (s : State) : Bool :=
  (s.notify.notifyEn && (List.finRange 8).any fun v => s.isOpen v && !(s.noticeSet v).isEmpty)
    || s.commandDone .primary || s.commandDone .maint

end State

/-! ### Taking an event -/

/-- A meaning that always leads to a next state. -/
def done (s : State) : Host.Outcome State Fault Refusal := .next s

end Sys2Proof.Machine
end

