-- ==== Sys2Proof/Machine/TableCommands.lean ====
section
/-! DEFINITION. The commands the table engine takes from a slot (chapter 2): DEFINE to CLEAR_ALL and a code that names no command. -/

namespace Sys2Proof.Machine

/-- All point numbers, ascending. -/
def allPoints : List PointNo := List.finRange 256

/-- Captured parameter word `i` of a command (R28); there are 16. -/
def paramWord (c : Command) (i : Nat) : Word := if h : i < 16 then c.params[i] else 0

/-- The command the table engine takes from the slot of port `p`, if it is that slot's turn (R4) and its code names
`name`. -/
def takenCommand (s : State) (p : Port) (name : CmdName) : Option Command :=
  if s.tableTurn = some (.slot p) then (s.busyWith p).filter (fun c => CmdName.ofCode c.code == name) else none

/-- The table engine takes a command and carries it out whole by `act`; the slot counts as the requester taken last
(R4). Where the command is not the next the table engine takes, nothing happens (log 2, log 3). -/
def onCommand (p : Port) (name : CmdName) (act : Command → State → State) (s : State) :
    Host.Outcome State Fault Refusal :=
  match takenCommand s p name with
  | some c => done (act c { s with lastTaken := .slot p })
  | none => done s

namespace State

/-- HOLDER of point `n` is the port other than `p` (R20, R21). -/
def heldAgainst (s : State) (p : Port) (n : PointNo) : Bool := (s.point n).holder == some (otherPort p)

/-- Checks 1 and 3 of R33 for a command that needs a point in use and respects holds: the code it is refused with. -/
def refusal (s : State) (p : Port) (n : PointNo) (respectsHold : Bool) : Option ResultCode :=
  if !(s.point n).state.isDefined then some .notDefined
  else if respectsHold && s.heldAgainst p n then some .held
  else none

/-- DEFINE (R34, R8, R33). -/
def takeDefine (p : Port) (c : Command) (s : State) : State :=
  let n := operandPoint c
  if (s.point n).state = .free then
    match s.checkDefinition (RawDef.ofWords (paramWord c)) none 0 with
    | .ok d => (s.defineCore n d).completeSnapshot p .ok n
    | .error code => s.completeZero p code
  else s.completeZero p .notFree

/-- MODIFY (R35, R10, R33). -/
def takeModify (p : Port) (c : Command) (s : State) : State :=
  let n := operandPoint c
  match s.refusal p n true with
  | some code => s.completeZero p code
  | none =>
    let r := s.point n
    match s.checkDefinition (RawDef.ofWords (paramWord c)) (some r.kind) r.segments.length with
    | .ok d => (s.modifyCore n d).completeSnapshot p .ok n
    | .error code => s.completeZero p code

/-- RETIRE (R37, R11, R12). -/
def takeRetire (p : Port) (c : Command) (s : State) : State :=
  let n := operandPoint c
  match s.refusal p n true with
  | some code => s.completeZero p code
  | none =>
    if (s.point n).inFlight = .none then (s.retirePoint n).complete p .ok zeroArea
    else (s.retirePoint n).enterPhase p (.waitFree n 0)

/-- HOLD (R20, R39). -/
def takeHold (p : Port) (c : Command) (s : State) : State :=
  let n := operandPoint c
  match s.refusal p n true with
  | some code => s.completeZero p code
  | none => (s.setPoint n { s.point n with holder := some p }).completeSnapshot p .ok n

/-- RELEASE (R20, R39). -/
def takeRelease (p : Port) (c : Command) (s : State) : State :=
  let n := operandPoint c
  match s.refusal p n true with
  | some code => s.completeZero p code
  | none => (s.setPoint n { s.point n with holder := none }).completeSnapshot p .ok n

/-- READ, of a point in any state (R40). -/
def takeRead (p : Port) (c : Command) (s : State) : State := s.completeSnapshot p .ok (operandPoint c)

/-- READ_NOW: the slot's own request at once, or the wait for the access in flight (R42). -/
def takeReadNow (p : Port) (c : Command) (s : State) : State :=
  let n := operandPoint c
  match s.refusal p n false with
  | some code => s.completeZero p code
  | none =>
    if (s.point n).inFlight = .none then s.requestAccess p n false
    else s.enterPhase p .waitPoint

/-- SHADOW with the bits the mask selects replaced by the value's (R44). -/
def mergeShadow (shadow value mask : Long) : Long := (shadow &&& ~~~mask) ||| (value &&& mask)

/-- The protection check of a WRITE at command time (R44). -/
def writeProtected (s : State) (p : Port) (n : PointNo) : Bool :=
  let g := s.region (s.point n).region
  g.readOnly || (p == .maint && g.primaryOnly)

/-- The course of a WRITE whose checks have passed, after SHADOW has taken its bits (R45, R46). -/
def awaitWrite (s : State) (p : Port) (n : PointNo) : State :=
  let r := s.point n
  if r.inFlight = .none then s.requestAccess p n true
  else if r.writeAgain then s.enterPhase p .waitWrite
  else (s.setPoint n { r with writeAgain := true }).enterPhase p .waitPoint

/-- WRITE (R44 to R46, R33). -/
def takeWrite (p : Port) (c : Command) (s : State) : State :=
  let n := operandPoint c
  if !(s.point n).state.isDefined then s.completeZero p .notDefined
  else if (s.point n).kind ≠ .output then s.completeZero p .badPoint
  else if s.heldAgainst p n then s.completeZero p .held
  else if s.writeProtected p n then s.completeZero p .isProtected
  else
    let value := longOf (paramWord c 0) (paramWord c 1)
    let mask := longOf (paramWord c 2) (paramWord c 3)
    (s.setPoint n { s.point n with shadow := mergeShadow (s.point n).shadow value mask }).awaitWrite p n

/-- The checks and the store of a SET_REGION of port `p` on region number `num` (R51): the code it is refused with, or
the state with the record stored. -/
def storeRegion (s : State) (p : Port) (num : Nat) (g : Region) : Except ResultCode State :=
  if h : num < 8 then
    if p = .maint ∧ (s.region ⟨num, h⟩).primaryOnly then .error .isProtected
    else if g.fieldsOk then .ok (s.setRegion ⟨num, h⟩ g)
    else .error .badField
  else .error .badField

/-- The report of a region number, zero where it names none (R52). -/
def reportOf (s : State) (num : Nat) : Vector Word 64 :=
  if h : num < 8 then s.regionReport ⟨num, h⟩ else zeroArea

/-- SET_REGION (R51). -/
def takeSetRegion (p : Port) (c : Command) (s : State) : State :=
  match s.storeRegion p c.operand.toNat (Region.ofWords (paramWord c)) with
  | .ok s' => s'.complete p .ok (s'.reportOf c.operand.toNat)
  | .error code => s.completeZero p code

/-- GET_REGION (R52). -/
def takeGetRegion (p : Port) (c : Command) (s : State) : State :=
  if c.operand.toNat < 8 then s.complete p .ok (s.reportOf c.operand.toNat) else s.completeZero p .badField

/-- SET_CLASS (R53). -/
def takeSetClass (p : Port) (c : Command) (s : State) : State :=
  if h : c.operand.toNat < 4 then
    let s := s.restartClass ⟨c.operand.toNat, h⟩ (paramWord c 0)
    s.complete p .ok (s.classReport (some ⟨c.operand.toNat, h⟩))
  else s.completeZero p .badField

/-- GET_CLASS: operands 0 to 3 name a class, 4 the UNSCHEDULED chain (R54). -/
def takeGetClass (p : Port) (c : Command) (s : State) : State :=
  match classOfCode c.operand.toNat with
  | some k => s.complete p .ok (s.classReport k)
  | none => s.completeZero p .badField

/-- The result area of CLEAR_ALL: points retired, and points that passed through RETIRING (R31, R38). -/
def clearAllArea (retired throughRetiring : Nat) : Vector Word 64 :=
  resultArea fun k => match k with
    | 0 => place 0 retired
    | 1 => place 0 throughRetiring
    | _ => 0

/-- CLEAR_ALL (R38, R22): every point in use is retired in ascending number, unless the other port holds one. -/
def takeClearAll (p : Port) (_c : Command) (s : State) : State :=
  if allPoints.any (s.heldAgainst p) then s.completeZero p .held
  else
    let inUse := allPoints.filter fun n => (s.point n).state.isDefined
    let s' := inUse.foldl retirePoint s
    match inUse.find? fun n => (s.point n).inFlight != .none with
    | some n => s'.enterPhase p (.waitFree n inUse.length)
    | none => s'.complete p .ok (clearAllArea inUse.length 0)

/-- An accepted command whose code names no command (R28). -/
def takeBadCommand (p : Port) (_c : Command) (s : State) : State := s.completeZero p .badCommand

end State

/-- DEFINE (R34). -/
def execDefine (p : Port) (s : State) : Host.Outcome State Fault Refusal := onCommand p .define (State.takeDefine p) s

/-- MODIFY (R35). -/
def execModify (p : Port) (s : State) : Host.Outcome State Fault Refusal := onCommand p .modify (State.takeModify p) s

/-- RETIRE (R37). -/
def execRetire (p : Port) (s : State) : Host.Outcome State Fault Refusal := onCommand p .retire (State.takeRetire p) s

/-- HOLD (R20). -/
def execHold (p : Port) (s : State) : Host.Outcome State Fault Refusal := onCommand p .hold (State.takeHold p) s

/-- RELEASE (R20). -/
def execRelease (p : Port) (s : State) : Host.Outcome State Fault Refusal :=
  onCommand p .release (State.takeRelease p) s

/-- READ (R40). -/
def execRead (p : Port) (s : State) : Host.Outcome State Fault Refusal := onCommand p .read (State.takeRead p) s

/-- READ_NOW (R42). -/
def execReadNow (p : Port) (s : State) : Host.Outcome State Fault Refusal :=
  onCommand p .readNow (State.takeReadNow p) s

/-- WRITE (R44). -/
def execWrite (p : Port) (s : State) : Host.Outcome State Fault Refusal := onCommand p .write (State.takeWrite p) s

/-- SET_REGION (R51). -/
def execSetRegion (p : Port) (s : State) : Host.Outcome State Fault Refusal :=
  onCommand p .setRegion (State.takeSetRegion p) s

/-- GET_REGION (R52). -/
def execGetRegion (p : Port) (s : State) : Host.Outcome State Fault Refusal :=
  onCommand p .getRegion (State.takeGetRegion p) s

/-- SET_CLASS (R53). -/
def execSetClass (p : Port) (s : State) : Host.Outcome State Fault Refusal :=
  onCommand p .setClass (State.takeSetClass p) s

/-- GET_CLASS (R54). -/
def execGetClass (p : Port) (s : State) : Host.Outcome State Fault Refusal :=
  onCommand p .getClass (State.takeGetClass p) s

/-- CLEAR_ALL (R38). -/
def execClearAll (p : Port) (s : State) : Host.Outcome State Fault Refusal :=
  onCommand p .clearAll (State.takeClearAll p) s

/-- A command whose code names no command (R28). -/
def execBadCommand (p : Port) (s : State) : Host.Outcome State Fault Refusal :=
  onCommand p .unknown (State.takeBadCommand p) s

end Sys2Proof.Machine
end

