-- ==== Sys2Proof/Machine/Backplane.lean ====
section
/-! DEFINITION. The backplane engine's accesses (chapter 6): the start with its checks, the beats and their pacing, and the completion as the table engine takes it (chapter 4, R25, R83). -/

namespace Sys2Proof.Machine

/-! ### The beats of an access (R79, R80, R110 to R113, R120, R130) -/

/-- What one beat is: a read or read-back, a write, the count beat of a prefixed block read, or a block beat. `second`
marks the beat at OFFSET + 2 of a 32-bit point. -/
inductive BeatOp where
  | read (second : Bool)
  | write (second : Bool)
  | count
  | block
  deriving DecidableEq, Repr

/-- Beats in one pass over a point's width: two for 32 bits, else one (R130). -/
def passBeats : Width → Nat
  | .w8 | .w16 => 1
  | .w32 => 2

/-- The beat at the access's position, none when its list is at its end (R130). -/
def beatOp (a : Access) : Option BeatOp :=
  let n := passBeats a.width
  match a.kind with
  | .read => if a.beat < n then some (.read (a.beat == 1)) else none
  | .write => if a.beat < n then some (.write (a.beat == 1)) else none
  | .writeVerify =>
    if a.beat < n then some (.write (a.beat == 1))
    else if a.beat < 2 * n then some (.read (a.beat - n == 1))
    else none
  | .blockRead =>
    if a.prefixed then
      if a.beat = 0 then some .count else if a.beat ≤ a.announced then some .block else none
    else if a.beat < a.blockLen then some .block else none

/-- Whether a beat is a write beat (R131). -/
def BeatOp.isWrite : BeatOp → Bool
  | .write _ => true
  | .read _ | .count | .block => false

/-- Whether a beat is the one at OFFSET + 2. -/
def BeatOp.isSecond : BeatOp → Bool
  | .read second | .write second => second
  | .count | .block => false

/-- The backplane address of a beat: BASE plus its offset (R120). -/
def beatAddress (a : Access) (op : BeatOp) : BitVec 24 :=
  a.cap.base + a.offset + (if op.isSecond then 2 else 0)

/-- Whether an access uses one byte lane only: a point of WIDTH 8 (R79). A block beat uses both (R110). -/
def Access.oneLane (a : Access) : Bool := a.kind != .blockRead && a.width == .w8

/-- Whether OFFSET is odd: the high lane of an 8-bit point (R79). -/
def Access.odd (a : Access) : Bool := a.offset.getLsbD 0

/-- The low lane is enabled (R79, R80, R110). -/
def Access.lowLane (a : Access) : Bool := !(a.oneLane && a.odd)

/-- The high lane is enabled (R79, R80, R110). -/
def Access.highLane (a : Access) : Bool := !(a.oneLane && !a.odd)

/-- Whether a beat of a 32-bit point carries bits 31 to 16: the second beat under LOW_FIRST, the first under HIGH_FIRST
(R80). -/
def carriesHigh (a : Access) (second : Bool) : Bool := second == (a.cap.order == .lowFirst)

/-- The word a write beat drives: the point's lane with zero on the other, the low word, or the half ORDER gives (R79,
R80, R89). -/
def beatData (a : Access) (second : Bool) : Word :=
  match a.width with
  | .w8 => if a.odd then wordOf (loByte (loWord a.driven)) 0 else wordOf 0 (loByte (loWord a.driven))
  | .w16 => loWord a.driven
  | .w32 => if carriesHigh a second then hiWord a.driven else loWord a.driven

/-- The data gathered after a read or read-back beat returned `bd` (R79, R80). -/
def gather (a : Access) (second : Bool) (bd : Word) : Long :=
  match a.width with
  | .w8 => (if a.odd then hiByte bd else loByte bd).setWidth 32
  | .w16 => bd.setWidth 32
  | .w32 => if carriesHigh a second then longOf bd (loWord a.got) else longOf (hiWord a.got) bd

/-- The access after a beat has ended with success with `bd` on the data path: the data it took, and its position moved
on (R111 to R114, R130). A word beyond BLOCK_LEN is dropped (R113). -/
def afterBeat (a : Access) (op : BeatOp) (bd : Word) : Access :=
  match op with
  | .write _ => { a with beat := a.beat + 1 }
  | .read second => { a with beat := a.beat + 1, got := gather a second bd }
  | .count => { a with
      beat := a.beat + 1, announced := (loByte bd).toNat, truncated := decide (a.blockLen < (loByte bd).toNat) }
  | .block => { a with
      beat := a.beat + 1, staged := if a.staged.length < a.blockLen then a.staged ++ [bd] else a.staged }

/-- The completion of an access that ended with this outcome, carrying the items of R78. -/
def completionOf (a : Access) (o : Outcome) : Completion where
  kind := a.kind
  outcome := o
  raw := if o = .ok ∧ a.kind = .read then some a.got else none
  driven := if a.kind.isWrite then some a.driven else none
  readBack := if o = .ok ∧ a.kind = .writeVerify then some a.got else none
  block := if o = .ok ∧ a.kind = .blockRead then some ⟨a.staged, a.truncated⟩ else none

/-- The pins with the strobe of a beat asserted, and a write beat's data driven (R131). -/
def strobePins (a : Access) (op : BeatOp) (p : Pins) : Pins :=
  if op.isWrite then { p with bwr := true, bd := some (beatData a op.isSecond) } else { p with brd := true }

/-- The pins with the address, chip select and lane enables of a beat, and no strobe (R131, R133). -/
def addressPins (a : Access) (op : BeatOp) : Pins where
  ba := beatAddress a op
  bcs := some a.region
  ble := a.lowLane
  bhe := a.highLane
  brd := false
  bwr := false
  bd := none

/-- The access as its phase REPORTING holds it (R121, R126): as it ended, and after a timeout without the data its read beats
gathered and without the words in its staging buffer, which are discarded (R134). -/
def Access.reported (a : Access) (o : Outcome) : Access :=
  match o with
  | .timeout => { a with got := 0, announced := 0, staged := [], truncated := false }
  | .ok | .noRegion | .isProtected => a

namespace State

/-- The state with these pins. -/
def setPins (s : State) (p : Pins) : State := { s with bus := { s.bus with pins := p } }

/-- The access ends: strobe, lane enables and chip select are deasserted, BD is released, and the completion waits at
the table engine, the access with its captured region record being kept until it is taken (R126, R131, R136). -/
def reportAccess (s : State) (g : Grant) (a : Access) (o : Outcome) : State :=
  (s.setPins (Pins.idleAt s.bus.pins.ba)).setPhase (.reporting g (a.reported o) (completionOf a o))

/-- Where a beat stands as it begins (R132, R133): a device-paced one in its release stage while BACK_N is asserted, and past
it at once otherwise. -/
def firstStage (pacing : Pacing) (backAsserted : Bool) : Stage :=
  match pacing with
  | .selfPaced => .timed
  | .device => if backAsserted then .release else .acknowledge

/-- A beat begins (R132, R133): a self-paced beat and a device-paced one that finds BACK_N deasserted have their strobe
asserted at once; a device-paced one that finds it asserted waits in its release stage. Its counts start afresh. -/
def beginBeat (s : State) (g : Grant) (a : Access) (op : BeatOp) : State :=
  let stage := firstStage a.cap.pacing s.backAsserted
  let pins := addressPins a op
  let pins := if stage = .release then pins else strobePins a op pins
  (s.setPins pins).setPhase (.running g { a with stage := stage, clks := 0, ticks := 0 })

/-- The next beat of the access begins, or the access ends OK after its last (R130). -/
def nextBeat (s : State) (g : Grant) (a : Access) : State :=
  match beatOp a with
  | some op => s.beginBeat g a op
  | none => s.reportAccess g a .ok

/-- The beat being run ends with success with `bd` on the data path (R130, R132, R133). -/
def endBeat (s : State) (g : Grant) (a : Access) (bd : Word) : State :=
  match beatOp a with
  | some op => s.nextBeat g (afterBeat a op bd)
  | none => s

/-! ### The start of an access (R24, R125 to R129) -/

/-- The kind of access a record fixes (R24). -/
def accessKind (r : Point) : AccessKind :=
  match r.kind with
  | .input => .read
  | .output => if r.verify then .writeVerify else .write
  | .block => .blockRead

/-- IN_FLIGHT under an access of this kind (R24). -/
def inFlightOf (k : AccessKind) : InFlight := if k.isWrite then .write else .read

/-- The access a record fixes at its start, with the region record captured (R24, R110, R126). -/
def accessOf (s : State) (r : Point) : Access where
  kind := accessKind r
  region := r.region
  cap := s.region r.region
  width := r.width
  offset := r.offset
  blockLen := r.blockLen
  prefixed := r.prefixed
  driven := r.shadow
  beat := 0
  stage := .timed
  clks := 0
  ticks := 0
  got := 0
  announced := 0
  staged := []
  truncated := false

/-- The check of R127: the captured region is disabled, or OFFSET plus the access length exceeds its size. -/
def noRegion (a : Access) : Bool :=
  let len := if a.kind = .blockRead then 2 else a.width.bytes
  !a.cap.enable || decide (sizeBytes a.cap.sizeCode < a.offset.toNat + len)

/-- The check of R128: a write in a READ_ONLY region, or a write of the maintenance slot for a WRITE command in a
PRIMARY_ONLY one. -/
def startProtected (g : Grant) (a : Access) : Bool :=
  a.kind.isWrite && (a.cap.readOnly || (a.cap.primaryOnly && g.requester == .slot .maint && g.forWrite))

/-- The scan engine's request state becomes FREE (R61). -/
def scanFree (s : State) : State := { s with scan := { s.scan with req := .free } }

/-- The requester learns of the start: the scan engine's request state becomes FREE, and a slot whose command still
waits on the access enters WAIT_ACCESS (R125). -/
def tellStarted (s : State) (g : Grant) : State :=
  match g.requester with
  | .scan => s.scanFree
  | .slot p => if g.serving then s.enterPhase p .waitAccess else s

/-- The requester of a refused start is told: the scan engine's request state becomes FREE, and a slot, whose command
has already completed, disregards it (R66, R125, R32). -/
def tellWithdrawn (s : State) (g : Grant) : State :=
  match g.requester with
  | .scan => s.scanFree
  | .slot _ => s

/-- The table engine takes the start of the access of grant `g` (R24, R125): refused for a FREE point; else the access
is fixed and captured, IN_FLIGHT set, the requester told, the checks of R127 and R128 made in turn, and the first beat
begun. -/
def takeStart (s : State) (g : Grant) : State :=
  let r := s.point g.point
  if r.state = .free then (s.tellWithdrawn g).busIdle
  else
    let a := s.accessOf r
    let s := (s.setPoint g.point { r with inFlight := inFlightOf a.kind }).tellStarted g
    if noRegion a then s.reportAccess g a .noRegion
    else if startProtected g a then s.reportAccess g a .isProtected
    else s.nextBeat g a

/-! ### The completion of an access (R25, R83, R84) -/

/-- A RETIRE or CLEAR_ALL of port `p` in WAIT_FREE for point `n` completes OK (R37, R38). -/
def finishWaitFree (s : State) (n : PointNo) (p : Port) : State :=
  match s.busyWith p with
  | some c =>
    match c.phase with
    | .waitFree q retired =>
      if q = n then
        s.complete p .ok (if CmdName.ofCode c.code = .clearAll then clearAllArea retired 1 else zeroArea)
      else s
    | .queued | .waitPoint | .waitGrant | .waitAccess | .waitWrite => s
  | none => s

/-- The completion of a RETIRING point's access: the point becomes FREE and the RETIRE or CLEAR_ALL that waits
completes (R12, R25, R37, R38). -/
def completeRetiring (s : State) (n : PointNo) : State :=
  ((s.freePoint n).finishWaitFree n .primary).finishWaitFree n .maint

/-- Whether the access of grant `g` is the own access of the command of port `p`, which is of this name and in
WAIT_ACCESS (R43, R47, R125). -/
def ownAccess (s : State) (g : Grant) (p : Port) (name : CmdName) : Bool :=
  g.serving && g.requester == .slot p && s.waits p name .waitAccess g.point

/-- What a discarded completion does to the command of port `p` (R42, R43, R46, R47): a READ_NOW that waited on it
completes REDEFINED; the WRITE that set WRITE_AGAIN places the owed write; a WRITE whose own write was discarded joins
the owed write, or places its write anew. -/
def afterDiscard (g : Grant) (owed : Bool) (s : State) (p : Port) : State :=
  let n := g.point
  if s.waits p .readNow .waitPoint n || s.ownAccess g p .readNow then s.completeSnapshot p .redefined n
  else if s.waits p .write .waitPoint n && owed then s.requestAccess p n true
  else if s.ownAccess g p .write then
    (if owed then s.enterPhase p .waitWrite else s.requestAccess p n true)
  else s

/-- A completion that finds REDEFINED set is discarded (R25, R84): both flags are cleared and the commands go on. -/
def discardCompletion (s : State) (g : Grant) : State :=
  let r := s.point g.point
  let s := s.setPoint g.point { r with inFlight := .none, redefined := false, writeAgain := false }
  afterDiscard g r.writeAgain (afterDiscard g r.writeAgain s .primary) .maint

/-- The result code of a READ_NOW or WRITE by its access's outcome (R43, R47). -/
def codeOf (o : Outcome) : ResultCode :=
  match o with
  | .ok => .ok
  | .noRegion | .isProtected | .timeout => .busFail

/-- What a counted completion does to the command of port `p` (R42, R43, R46, R47): its own READ_NOW or WRITE, and a
WRITE joined to the other slot's completed WRITE, complete with a snapshot; a READ_NOW that waited places its own
request, and the WRITE that set WRITE_AGAIN the owed write. `shared` says that the access was a slot's own for a
WRITE. -/
def afterCounted (g : Grant) (o : Outcome) (owed shared : Bool) (s : State) (p : Port) : State :=
  let n := g.point
  if s.ownAccess g p .readNow || s.ownAccess g p .write || (shared && s.waits p .write .waitWrite n) then
    s.completeSnapshot p (codeOf o) n
  else if s.waits p .readNow .waitPoint n then s.requestAccess p n false
  else if s.waits p .write .waitPoint n && owed then s.requestAccess p n true
  else s

/-- Whether the access is the own write of a slot's WRITE (R47). -/
def isSharedWrite (s : State) (g : Grant) : Bool := s.ownAccess g .primary .write || s.ownAccess g .maint .write

/-- The block words a good block read delivers are committed (R83 step 2, R116). -/
def commitCompletion (s : State) (r : Point) (c : Completion) : State :=
  match c.kind, c.outcome, c.block with
  | .blockRead, .ok, some d => s.commitBlock r d.words
  | _, _, _ => s

/-- A counted completion in the order of R83: IN_FLIGHT none, value processing, health, causes, then the commands.
WRITE_AGAIN is cleared and the owed write handed on (R25, R46). -/
def countCompletion (s : State) (g : Grant) (c : Completion) : State :=
  let n := g.point
  let r := s.point n
  let j := judge r (s.blockWords r) c
  let s := (s.commitCompletion r c).setPoint n { j.point with inFlight := .none, writeAgain := false }
  let s := s.addCauses n j.raised
  let shared := s.isSharedWrite g
  afterCounted g c.outcome r.writeAgain shared (afterCounted g c.outcome r.writeAgain shared s .primary) .maint

/-- The table engine takes the completion `c` of the access of grant `g` (R25): discarded with the point made FREE when
it is RETIRING, discarded when REDEFINED is set, counted otherwise; the engine then enters IDLE and grants the next
request (R136, R123), the access dropped with its captured record and its staging buffer. -/
def takeCompletion (s : State) (g : Grant) (c : Completion) : State :=
  let r := s.point g.point
  (if r.state = .retiring then s.completeRetiring g.point
   else if r.redefined then s.discardCompletion g
   else s.countCompletion g c).busIdle

end State

/-! ### The rows -/

/-- ACCESS_START (R24): the start that waits at the table engine is taken, ahead of every other request (R4). -/
def execAccessStart (s : State) : Host.Outcome State Fault Refusal :=
  match s.bus.phase with
  | .granted g => if s.loading then done s else done (s.takeStart g)
  | .idle | .running _ _ | .reporting _ _ _ => done s

/-- BEAT_RELEASE (R133): BACK_N is seen deasserted; a beat in its release stage has its strobe asserted. -/
def execBeatRelease (s : State) : Host.Outcome State Fault Refusal :=
  let s := { s with backAsserted := false }
  match s.bus.phase with
  | .running g a =>
    match a.stage, beatOp a with
    | .release, some op =>
      done ((s.setPins (strobePins a op s.bus.pins)).setPhase (.running g { a with stage := .acknowledge }))
    | _, _ => done s
  | .idle | .granted _ | .reporting _ _ _ => done s

/-- BEAT_ACKNOWLEDGE (R133): BACK_N is seen asserted; a beat in its acknowledge stage ends with success. Outside that
stage it is ignored (R135). -/
def execBeatAcknowledge (bd : Word) (s : State) : Host.Outcome State Fault Refusal :=
  let s := { s with backAsserted := true }
  match s.bus.phase with
  | .running g a =>
    match a.stage with
    | .acknowledge => done (s.endBeat g a bd)
    | .timed | .release => done s
  | .idle | .granted _ | .reporting _ _ _ => done s

/-- SELF_PACED_BEAT_END (R132): a self-paced beat ends with success once ACCESS_TIME periods of CLK have passed. -/
def execSelfPacedBeatEnd (bd : Word) (s : State) : Host.Outcome State Fault Refusal :=
  match s.bus.phase with
  | .running g a =>
    if a.stage = .timed ∧ a.cap.accessTime.toNat ≤ a.clks then done (s.endBeat g a bd) else done s
  | .idle | .granted _ | .reporting _ _ _ => done s

/-- BEAT_TIMEOUT (R134): the timeout of a device-paced beat expires once TIMEOUT × 8 ticks have passed, and ends the
access with outcome TIMEOUT. -/
def execBeatTimeout (s : State) : Host.Outcome State Fault Refusal :=
  match s.bus.phase with
  | .running g a =>
    if a.stage ≠ .timed ∧ a.cap.timeout.toNat * Config.ticksPerTimeoutUnit ≤ a.ticks then
      done (s.reportAccess g a .timeout)
    else done s
  | .idle | .granted _ | .reporting _ _ _ => done s

/-- ACCESS_COMPLETION (R25): the completion that waits at the table engine is taken, ahead of every other request (R4).
-/
def execAccessCompletion (s : State) : Host.Outcome State Fault Refusal :=
  match s.bus.phase with
  | .reporting g _ c => if s.loading then done s else done (s.takeCompletion g c)
  | .idle | .granted _ | .running _ _ => done s

end Sys2Proof.Machine
end

