-- ==== Sys2Proof/Machine/Scan.lean ====
section
/-! DEFINITION. The timebase, the class timers, the scan engine's choice and its visits (chapter 3). -/

namespace Sys2Proof.Machine

namespace State

/-! ### Class timers (R57 to R59) -/

/-- An expiry of class `c` is taken: the count is reloaded with PERIOD; an IDLE class with a non-empty chain starts a
pass at HEAD (R58), and a class IN_PASS counts an overrun (R59). -/
def takeExpiry (s : State) (c : ClassNo) : State :=
  let x := s.classState c
  let x := { x with remaining := x.period }
  if x.inPass then
    s.setClassState c { x with overrunCount := min Config.countMax (x.overrunCount + 1), overrun := true }
  else
    match (s.chain (some c)).head with
    | some h => s.setClassState c { x with inPass := true, cursor := some h }
    | none => s.setClassState c x

/-- Whether the timer of class `c` counts: SCAN_RUN is set, its PERIOD is not 0, and the part is not LOADING (R55, R57).
-/
def timerRuns (s : State) (c : ClassNo) : Bool := s.scan.run && (s.classState c).period != 0 && !s.loading

/-- Whether an expiry of class `c` waits to be taken: its running timer has reached 0 (R57, log 10). -/
def expiryDue (s : State) (c : ClassNo) : Bool := s.timerRuns c && (s.classState c).remaining == 0

/-- The 1 ms tick at the timer of class `c`: a running count falls by 1 (R57). An expiry still waiting from an earlier
tick is taken first (log 10). -/
def countDown (s : State) (c : ClassNo) : State :=
  if s.timerRuns c then
    let s := if s.expiryDue c then s.takeExpiry c else s
    s.setClassState c { s.classState c with remaining := (s.classState c).remaining - 1 }
  else s

/-! ### The timebase (R56) -/

/-- The running access with its beat's counts passed through `f`. -/
def mapAccess (s : State) (f : Access → Access) : State :=
  match s.bus.phase with
  | .running g a => s.setPhase (.running g (f a))
  | .idle | .granted _ | .reporting _ _ _ => s

/-- The 1 ms tick: the four class timers count (R57). -/
def millisecondTick (s : State) : State := (((s.countDown 0).countDown 1).countDown 2).countDown 3

/-- The 1 µs tick: it feeds the timeout of the device-paced beat being run (R133), and every 1000th is a 1 ms tick. -/
def microsecondTick (s : State) : State :=
  let s := s.mapAccess fun a => { a with ticks := a.ticks + 1 }
  if s.timebase.us + 1 < Config.microsecondsPerMillisecond then
    { s with timebase := { s.timebase with us := s.timebase.us + 1 } }
  else ({ s with timebase := { s.timebase with us := 0 } }).millisecondTick

/-- One period of CLK: it feeds the length of the self-paced beat being run (R132), and every 25th is a 1 µs tick. -/
def clkPeriod (s : State) : State :=
  let s := s.mapAccess fun a => { a with clks := a.clks + 1 }
  if s.timebase.clk + 1 < Config.clksPerMicrosecond then
    { s with timebase := { s.timebase with clk := s.timebase.clk + 1 } }
  else ({ s with timebase := { s.timebase with clk := 0 } }).microsecondTick

/-- This many periods of CLK, one after another. -/
def runClk : Nat → State → State
  | 0, s => s
  | n + 1, s => runClk n s.clkPeriod

/-! ### The scan engine's choice (R71) -/

/-- The lowest-numbered region whose pending flag is set. -/
def lowestPending (s : State) : Option RegionNo := (List.finRange 8).find? s.pendingFlag

/-- The lowest-numbered class IN_PASS. -/
def lowestInPass (s : State) : Option ClassNo := (List.finRange 4).find? fun c => (s.classState c).inPass

/-- A visit request is placed with the table engine (R61). -/
def placeVisit (s : State) (w : ScanWork) : State := { s with scan := { s.scan with req := .visiting w } }

/-- The start of a sweep of region `r`: its flag cleared, IN_SWEEP, cursor 0 (R68). -/
def startSweep (s : State) (r : RegionNo) : State :=
  let s := s.setPendingFlag r false
  { s with scan := { s.scan with sweep := some r, sweepCursor := 0 } }

/-- The scan engine chooses: the sweep in progress, else the lowest pending region, else the lowest class in pass, else
nothing (R71). -/
def chooseWork (s : State) : State :=
  match s.scan.sweep with
  | some r => s.placeVisit (.sweep r)
  | none =>
    match s.lowestPending with
    | some r => (s.startSweep r).placeVisit (.sweep r)
    | none =>
      match s.lowestInPass with
      | some c => s.placeVisit (.pass c)
      | none => s

/-- Whether the scan engine may choose: its request state is FREE, SCAN_RUN is set, and the part is not LOADING (R71). -/
def mayChoose (s : State) : Bool := s.scan.req == .free && s.scan.run && !s.loading

/-! ### Visits (R62, R63, R69) -/

/-- The ruling of R62 on point `n`, the request state FREE or REQUESTED after it (R61): skipped while an access is in
flight, PROBE counted down while FAULTED and not 0, and otherwise an access requested. -/
def rule (s : State) (n : PointNo) : State :=
  let r := s.point n
  if r.inFlight ≠ .none then s.scanFree
  else if r.state = .faulted ∧ r.probe ≠ 0 then (s.setPoint n { r with probe := r.probe - 1 }).scanFree
  else ({ s with scan := { s.scan with req := .requested } }).placeRequest .scan n false

/-- A visit of class `c`: the point at the cursor is ruled on and the cursor takes its NEXT; the pass ends when that is
END. With the cursor at END the visit concerns no point (R63). -/
def visitPass (s : State) (c : ClassNo) : State :=
  match (s.classState c).cursor with
  | none => s.scanFree
  | some n =>
    let s := s.rule n
    let next := (s.point n).next
    s.setClassState c { s.classState c with inPass := next.isSome, cursor := next }

/-- Whether point `n` qualifies for a sweep of region `r` (R69). -/
def qualifies (s : State) (r : RegionNo) (n : PointNo) : Bool :=
  let x := s.point n
  x.region == r && x.attnRead && (x.kind == .input || x.kind == .block) && x.state.isDefined

/-- A visit of a sweep of region `r`: the lowest qualifying point at or above the cursor is ruled on and the cursor
moves past it; the sweep ends when there is none, and after point 255 (R69). -/
def visitSweep (s : State) (r : RegionNo) : State :=
  match allPoints.find? fun n => decide (s.scan.sweepCursor ≤ n.val) && s.qualifies r n with
  | none =>
    let s := s.scanFree
    { s with scan := { s.scan with sweep := none } }
  | some n =>
    let s := s.rule n
    { s with scan := { s.scan with
        sweepCursor := n.val + 1, sweep := if n.val = 255 then none else s.scan.sweep } }

/-- The table engine takes a visit request (R61 to R63, R69). -/
def takeVisit (s : State) (w : ScanWork) : State :=
  match w with
  | .pass c => s.visitPass c
  | .sweep r => s.visitSweep r

end State

/-! ### The rows -/

/-- TIMEBASE_TICK (R56, R57). -/
def execTimebaseTick (periods : Nat) (s : State) : Host.Outcome State Fault Refusal := done (s.runClk periods)

/-- CLASS_TIMER_EXPIRY (R57 to R59). -/
def execClassTimerExpiry (c : ClassNo) (s : State) : Host.Outcome State Fault Refusal :=
  if s.expiryDue c then done (s.takeExpiry c) else done s

/-- SCAN_CHOOSE (R71). -/
def execScanChoose (s : State) : Host.Outcome State Fault Refusal :=
  if s.mayChoose then done s.chooseWork else done s

/-- VISIT (R62): the scan engine's visit request is taken in its turn (R4). -/
def execVisit (s : State) : Host.Outcome State Fault Refusal :=
  match s.scan.req with
  | .visiting w =>
    if s.tableTurn = some .scan then done ({ s with lastTaken := .scan }.takeVisit w) else done s
  | .free | .requested => done s

end Sys2Proof.Machine
end

