-- ==== Sys2Proof/Machine/Ports.lean ====
section
/-! DEFINITION. The two ports: the framing that decides which words reach a register (R164, R165, R170), the command register (R28 to R30), and the block area (R167). -/

namespace Sys2Proof.Machine

namespace State

/-! ### Framing (R164, R165, R170) -/

/-- Whether the port takes a word that travels on `v` as an access of register `addr`, a read if `isRead` (R164, R165).
On SPI, the transfer in progress has this direction and register. On I2C, the transaction is addressed to the part's
own target address, which it acknowledges only when not LOADING, the pointer names the register, and a written word
belongs to an acknowledged write transaction. -/
def takesWord (s : State) (v : Via) (isRead : Bool) (addr : BitVec 7) : Bool :=
  match v with
  | .spi => s.spi == .active isRead addr
  | .i2c target => target == s.i2cAddr && !s.loading && s.pointer == addr && (isRead || s.i2cWriteOpen)

/-- A word written through `v` to register `addr` with this effect. While LOADING every write is ignored (R170). -/
def portWrite (s : State) (v : Via) (addr : BitVec 7) (effect : State → State) : State :=
  if s.takesWord v false addr && !s.loading then effect s else s

/-- A read on I2C ends the write transaction before it (R165). -/
def closeWrite (s : State) (v : Via) : State :=
  match v with
  | .spi => s
  | .i2c _ => { s with i2cWriteOpen := false }

/-- The word a port's read returned is kept as the word it shifts out, the primary port on SDO (R164, R165). -/
def send (s : State) (p : Port) (w : Word) : State :=
  match p with
  | .primary => { s.setPort .primary { s.primary with sent := w } with sdo := .word w }
  | .maint => s.setPort .maint { s.maint with sent := w }

/-- A word read through `v` from register `addr`: `access` gives the word and the state after the read. While LOADING
the word is `whileLoading` and the read has no side effect (R170). -/
def portRead (s : State) (v : Via) (addr : BitVec 7) (whileLoading : Word) (access : State → Word × State) : State :=
  if s.takesWord v true addr then
    let s := s.closeWrite v
    if s.loading then s.send v.port whileLoading
    else (access s).2.send v.port (access s).1
  else s

/-! ### The command register (R28 to R30) -/

/-- A CMD write that a port takes (R28, R29, R30): refused with COLLISION while the slot is BUSY; DISMISS returns a
DONE slot to IDLE; any other code is accepted, with the 16 parameter words captured. -/
def writeCmd (p : Port) (w : Word) (s : State) : State :=
  match (s.slot p).state with
  | .busy _ => s.setPort p { s.port p with collision := true }
  | .idle | .done =>
    if hiByte w = dismissCode then s.setSlot p { s.slot p with state := .idle }
    else s.setSlot p { s.slot p with state := .busy {
      code := hiByte w, operand := loByte w, params := (s.port p).params, phase := .queued } }

/-! ### The block area (R167) -/

/-- The block-area word at an address: parameter area, result area, and zero beyond (R167). -/
def blockAreaWord (s : State) (p : Port) (a : BitVec 7) : Word :=
  if h : a.toNat < 16 then (s.port p).params[a.toNat]
  else if h' : a.toNat < 80 then (s.slot p).area[a.toNat - 16]
  else 0

/-- A read of BLK_DATA: the word at BLK_ADDR, which advances by 1, from 127 to 0 (R167). -/
def readBlkData (p : Port) (s : State) : Word × State :=
  (s.blockAreaWord p (s.port p).blkAddr, s.setPort p { s.port p with blkAddr := (s.port p).blkAddr + 1 })

/-- A write of BLK_DATA: stored in the parameter area, ignored elsewhere, and BLK_ADDR advances (R167). -/
def writeBlkData (p : Port) (w : Word) (s : State) : State :=
  let x := s.port p
  let params := if h : x.blkAddr.toNat < 16 then x.params.set x.blkAddr.toNat w else x.params
  s.setPort p { x with params := params, blkAddr := x.blkAddr + 1 }

/-- A write of BLK_ADDR takes bits 6 to 0 (R167). -/
def writeBlkAddr (p : Port) (w : Word) (s : State) : State :=
  s.setPort p { s.port p with blkAddr := w.extractLsb' 0 7 }

/-! ### Transfers -/

/-- The command byte of an SPI transfer fixes its direction and register, SDO being driven low (R164). It is the first byte of a transfer:
within a transfer, or in one a cold reset abandoned, no command byte is taken. -/
def takeCommandByte (b : Byte) (s : State) : State :=
  match s.spi with
  | .ready => { s with spi := .active (b.getLsbD 7) (b.extractLsb' 0 7), sdo := .low }
  | .active _ _ | .abandoned => s

/-- The pointer byte of an I2C write transaction (R165). The part acknowledges its own target address only, and none
while LOADING (R170); a transaction it does not acknowledge leaves the pointer. -/
def takePointer (target : BitVec 7) (b : Byte) (s : State) : State :=
  if target = s.i2cAddr ∧ s.loading = false then { s with pointer := b.extractLsb' 0 7, i2cWriteOpen := true }
  else { s with i2cWriteOpen := false }

end State

/-! ### The rows -/

/-- COMMAND_BYTE (R164). -/
def execCommandByte (b : Byte) (s : State) : Host.Outcome State Fault Refusal := done (s.takeCommandByte b)

/-- TRANSFER_END (R164): SCS_N rises, SDO is no longer driven, and the port is ready for a new command byte. -/
def execTransferEnd (s : State) : Host.Outcome State Fault Refusal := done { s with spi := .ready, sdo := .undriven }

/-- POINTER_WRITE (R165). -/
def execPointerWrite (target : BitVec 7) (pointer : Byte) (s : State) : Host.Outcome State Fault Refusal :=
  done (s.takePointer target pointer)

/-- CMD_WRITE (R28, R29). -/
def execCmdWrite (v : Via) (w : Word) (s : State) : Host.Outcome State Fault Refusal :=
  done (s.portWrite v Reg.cmd (State.writeCmd v.port w))

/-- DISMISS (R30): a CMD write with the code DISMISS. -/
def execDismiss (v : Via) (operand : Byte) (s : State) : Host.Outcome State Fault Refusal :=
  done (s.portWrite v Reg.cmd (State.writeCmd v.port (wordOf dismissCode operand)))

/-- BLK_DATA_READ (R167). -/
def execBlkDataRead (v : Via) (s : State) : Host.Outcome State Fault Refusal :=
  done (s.portRead v Reg.blkData 0 (State.readBlkData v.port))

/-- BLK_DATA_WRITE (R167). -/
def execBlkDataWrite (v : Via) (w : Word) (s : State) : Host.Outcome State Fault Refusal :=
  done (s.portWrite v Reg.blkData (State.writeBlkData v.port w))

end Sys2Proof.Machine
end

