-- ==== Sys2Proof/Machine/Attention.lean ====
section
/-! DEFINITION. The attention unit (chapter 7): pin events, level-mode lines, configuration, and EDGE_SEEN. -/

namespace Sys2Proof.Machine

/-- A line in a level mode at its asserted level (R143). -/
def Line.asserted (x : Line) : Bool :=
  match x.mode with
  | .high => x.live
  | .low => !x.live
  | .off | .rise | .fall => false

/-- Whether a change to this level is a matching edge of the line's mode (R142). -/
def Line.matchesEdge (x : Line) (high : Bool) : Bool :=
  match x.mode with
  | .rise => high
  | .fall => !high
  | .off | .high | .low => false

/-- MODE from its three bits; 5 to 7 are taken as OFF (R145, R172). -/
def LineMode.ofCode : Nat → LineMode
  | 1 => .rise
  | 2 => .fall
  | 3 => .high
  | 4 => .low
  | _ => .off

/-- MODE as its three bits (R172). -/
def LineMode.code : LineMode → Nat
  | .off => 0
  | .rise => 1
  | .fall => 2
  | .high => 3
  | .low => 4

/-- A line after one 8-bit field of an ATTN_CONFIG write (R145): with the write enable in bit 7, MODE from bits 6 to 4
and REGION from bits 2 to 0. -/
def Line.configured (x : Line) (f : Byte) : Line :=
  if f.getLsbD 7 then
    { x with mode := LineMode.ofCode (f.extractLsb' 4 3).toNat, region := ⟨(f.extractLsb' 0 3).toNat, BitVec.isLt _⟩ }
  else x

/-- The 8-bit field of a line as ATTN_CONFIG reads it, the write enable reading 0 (R145, R172). -/
def Line.configField (x : Line) : Byte := BitVec.ofNat 8 (x.mode.code * 16 + x.region.val)

namespace State

/-- An asserted level-mode line keeps its region's pending flag set (R143). -/
def keepFlag (s : State) (l : LineNo) : State :=
  if (s.line l).asserted then s.setPendingFlag (s.line l).region true else s

/-- A change of a pin's level (R141 to R144): the live level follows; a matching edge sets the region's flag and
EDGE_SEEN; a level-mode line that becomes asserted sets the flag, and one that is released leaves it set: where the flag
was cleared while the line was asserted and not yet set again, it is set before the release is taken (R143, log 25). A
level the line already has is no event. While LOADING the unit sets nothing (R55). -/
def takeAtn (l : LineNo) (high : Bool) (s : State) : State :=
  let x := s.line l
  if x.live = high then s
  else
    if s.loading then s.setLine l { x with live := high }
    else if x.matchesEdge high then
      (s.setLine l { x with live := high, edgeSeen := true }).setPendingFlag x.region true
    else ((s.keepFlag l).setLine l { x with live := high }).keepFlag l

/-- One field of an ATTN_CONFIG write at line `l` (R145, R146): the configuration is replaced where the field enables
it, and a line then asserted in a level mode sets its region's flag in the same event. -/
def configureLine (s : State) (l : LineNo) (f : Byte) : State :=
  if f.getLsbD 7 then (s.setLine l ((s.line l).configured f)).keepFlag l else s

/-- The line in bits 7 to 0 of ATTN_CONFIG_n: line 2n (section 7.5). -/
def lowLine (n : Fin 4) : LineNo := ⟨2 * n.val, by omega⟩

/-- The line in bits 15 to 8 of ATTN_CONFIG_n: line 2n + 1 (section 7.5). -/
def highLine (n : Fin 4) : LineNo := ⟨2 * n.val + 1, by omega⟩

/-- A write to ATTN_CONFIG_n (R145). -/
def writeAttnConfig (n : Fin 4) (w : Word) (s : State) : State :=
  (s.configureLine (lowLine n) (loByte w)).configureLine (highLine n) (hiByte w)

/-- A write to ATTN_STATE clears the EDGE_SEEN flags at positions 15 to 8 holding 1 (R147, R172). -/
def writeAttnState (w : Word) (s : State) : State :=
  { s with lines := Vector.ofFn fun l : Fin 8 =>
      { s.lines[l.val] with edgeSeen := s.lines[l.val].edgeSeen && !flag w (8 + l.val) } }

end State

/-! ### The rows -/

/-- ATN_EVENT (R141). -/
def execAtnEvent (l : LineNo) (high : Bool) (s : State) : Host.Outcome State Fault Refusal := done (s.takeAtn l high)

/-- ATTENTION_FLAG_SET_AGAIN (R143): an asserted level-mode line sets its region's flag where it is clear. The unit is
held while LOADING (R55). -/
def execAttentionFlagSetAgain (l : LineNo) (s : State) : Host.Outcome State Fault Refusal :=
  if s.loading then done s else done (s.keepFlag l)

/-- ATTN_CONFIG_WRITE (R145, R146). -/
def execAttnConfigWrite (v : Via) (n : Fin 4) (w : Word) (s : State) : Host.Outcome State Fault Refusal :=
  done (s.portWrite v (Reg.attnConfig n) (State.writeAttnConfig n w))

/-- EDGE_SEEN_CLEAR (R147): a write to ATTN_STATE. -/
def execEdgeSeenClear (v : Via) (w : Word) (s : State) : Host.Outcome State Fault Refusal :=
  done (s.portWrite v Reg.attnState (State.writeAttnState w))

end Sys2Proof.Machine
end

