-- ==== Sys2Proof/Machine/Notification.lean ====
section
/-! DEFINITION. The notification unit's registers (chapter 8): level controls and order, claims, and acknowledges. -/

namespace Sys2Proof.Machine

namespace State

/-! ### Level controls (R150, R151) -/

/-- A write to LEVEL_MASK replaces the eight masks (R150). -/
def writeLevelMask (w : Word) (s : State) : State := { s with notify := { s.notify with mask := loByte w } }

/-- A write to LEVEL_TYPE replaces the eight types (R150). -/
def writeLevelType (w : Word) (s : State) : State := { s with notify := { s.notify with type := loByte w } }

/-- The eight entries of a pair of order words, entries 0 to 3 in the first (R172). -/
def orderEntries (lo hi : Word) : List Nat :=
  [nibble lo 0, nibble lo 1, nibble lo 2, nibble lo 3, nibble hi 0, nibble hi 1, nibble hi 2, nibble hi 3]

/-- Whether a pair holds each of the levels 0 to 7 exactly once (R151): eight different entries, each below 8. -/
def orderValid (lo hi : Word) : Bool := (orderEntries lo hi).all (· < 8) && decide (orderEntries lo hi).Nodup

/-- The order of a pair; an entry above 7, which no accepted pair has, is reduced modulo 8. -/
def orderOf (lo hi : Word) : Vector Level 8 :=
  #v[Fin.ofNat 8 (nibble lo 0), Fin.ofNat 8 (nibble lo 1), Fin.ofNat 8 (nibble lo 2), Fin.ofNat 8 (nibble lo 3),
     Fin.ofNat 8 (nibble hi 0), Fin.ofNat 8 (nibble hi 1), Fin.ofNat 8 (nibble hi 2), Fin.ofNat 8 (nibble hi 3)]

/-- A pair of order words is checked, and installed or refused with ORDER_ERR (R151). -/
def installOrder (s : State) (lo hi : Word) : State :=
  if orderValid lo hi then { s with notify := { s.notify with order := orderOf lo hi } }
  else { s with notify := { s.notify with orderErr := true } }

/-- A write to LEVEL_ORDER_LO replaces the port's staged copy (R151). -/
def writeLevelOrderLo (p : Port) (w : Word) (s : State) : State := s.setPort p { s.port p with stagedLo := w }

/-- A write to LEVEL_ORDER_HI checks the port's staged copy with the written entries (R151). -/
def writeLevelOrderHi (p : Port) (w : Word) (s : State) : State := s.installOrder (s.port p).stagedLo w

/-! ### Claims (R153 to R156) -/

/-- The level a claim of port `p` chooses from: the one CLAIM_LEVEL selected, else the first level in the order that is
open and has a member (R153, R156). -/
def claimFrom (s : State) (p : Port) : Option Level :=
  match (s.port p).claimLevel with
  | some v => some v
  | none => s.notify.order.toList.find? fun v => s.isOpen v && !(s.noticeSet v).isEmpty

/-- The point a claim of port `p` chooses, with its level: the lowest-numbered member, the head of the ascending set
(R148, R153). -/
def claimChoice (s : State) (p : Port) : Option (Level × PointNo) :=
  match s.claimFrom p with
  | some v => (s.noticeSet v).head?.map fun n => (v, n)
  | none => none

/-- The port's claim registers replaced and its selection removed (R155, R156). -/
def latchClaim (s : State) (p : Port) (causes : Word) (value : Long) : State :=
  s.setPort p { s.port p with claimCauses := causes, claimValue := value, claimLevel := none }

/-- The word that stands for NONE (R154). -/
def claimNone : Word := 0x0100

/-- A claim of port `p`, taken whole (R154): the point, its causes and its value are latched, and at an AUTO level its
causes are emptied and it leaves its set. A claim that finds nothing returns 0x0100 and zeroes the registers. -/
def takeClaim (p : Port) (s : State) : Word × State :=
  match s.claimChoice p with
  | some (v, n) =>
    let r := s.point n
    let s' := s.latchClaim p (wordOf (BitVec.ofNat 8 n.val) r.causes) r.value
    (BitVec.ofNat 16 n.val, if s.isAck v then s' else s'.emptyCauses n)
  | none => (claimNone, s.latchClaim p 0 0)

/-- A write to CLAIM_LEVEL selects a level for the port's next claim, or removes the selection (R156). -/
def writeClaimLevel (p : Port) (w : Word) (s : State) : State :=
  s.setPort p { s.port p with claimLevel := if h : w.toNat < 8 then some ⟨w.toNat, h⟩ else none }

/-- A write to ACK removes the named causes from a point, which leaves its set when CAUSES empties (R158). -/
def writeAck (w : Word) (s : State) : State :=
  let n : PointNo := (hiByte w).toFin
  s.setCauses n ((s.point n).causes &&& ~~~(loByte w))

end State

/-! ### The rows -/

/-- CLAIM (R154): a word read from CLAIM; while LOADING it reads 0 and is not a claim (R163). -/
def execClaim (v : Via) (s : State) : Host.Outcome State Fault Refusal :=
  done (s.portRead v Reg.claim 0 (State.takeClaim v.port))

/-- CLAIM_LEVEL (R156). -/
def execClaimLevel (v : Via) (w : Word) (s : State) : Host.Outcome State Fault Refusal :=
  done (s.portWrite v Reg.claimLevel (State.writeClaimLevel v.port w))

/-- ACK (R158). -/
def execAck (v : Via) (w : Word) (s : State) : Host.Outcome State Fault Refusal :=
  done (s.portWrite v Reg.ack (State.writeAck w))

/-- LEVEL_MASK (R150). -/
def execLevelMask (v : Via) (w : Word) (s : State) : Host.Outcome State Fault Refusal :=
  done (s.portWrite v Reg.levelMask (State.writeLevelMask w))

/-- LEVEL_TYPE (R150). -/
def execLevelType (v : Via) (w : Word) (s : State) : Host.Outcome State Fault Refusal :=
  done (s.portWrite v Reg.levelType (State.writeLevelType w))

/-- LEVEL_ORDER_LO (R151). -/
def execLevelOrderLo (v : Via) (w : Word) (s : State) : Host.Outcome State Fault Refusal :=
  done (s.portWrite v Reg.levelOrderLo (State.writeLevelOrderLo v.port w))

/-- LEVEL_ORDER_HI (R151). -/
def execLevelOrderHi (v : Via) (w : Word) (s : State) : Host.Outcome State Fault Refusal :=
  done (s.portWrite v Reg.levelOrderHi (State.writeLevelOrderHi v.port w))

end Sys2Proof.Machine
end

