-- ==== Sys2Proof/Machine/Control.lean ====
section
/-! DEFINITION. CONTROL and STATUS (section 9.5), the warm reset (R13 and the rules it cites), and CLASS_STATE (R60). -/

namespace Sys2Proof.Machine

/-- A record after a warm reset, a RETIRING one made FREE (R13). -/
def Point.warm (r : Point) : Point :=
  if r.state = .retiring then Point.free
  else { r with inFlight := .none, redefined := false, writeAgain := false, causes := 0, holder := none }

/-- A port after a warm reset: a BUSY slot is DONE with ABORTED and its result area as it stood, and the CLAIM_LEVEL
selection is removed (R50, R162). -/
def PortState.warm (x : PortState) : PortState :=
  { x with
    claimLevel := none
    slot := match x.slot.state with
      | .busy _ => { x.slot with state := .done, result := .aborted }
      | .idle | .done => x.slot }

/-- The backplane engine after a warm reset: the access aborted in any phase with its outputs released, the request
table emptied, MAINT the last requester granted, the region records kept (R138, R139). -/
def Bus.warm (b : Bus) : Bus :=
  { b with
    entries := ⟨none, none, none⟩, lastGranted := .slot .maint, phase := .idle, pins := Pins.idleAt b.pins.ba }

/-- The scan engine after a warm reset (R75). -/
def Scan.warm (x : Scan) : Scan where
  run := false
  classes := mapAll State.endPass x.classes
  pendingFlags := Vector.replicate 8 false
  sweep := none
  sweepCursor := 0
  req := .free

namespace State

/-- The warm reset, taken whole (R13, R50, R75, R138, R139, R162): the segments of RETIRING points return to the pool,
every record, port, engine and set takes its value after a warm reset, and the scan engine counts as the requester
taken last (R4). Configuration, values and chains are kept. -/
def warmReset (s : State) : State :=
  let s := s.points.toList.foldl
    (fun t r => if r.state = .retiring then t.returnSegments r.segments else t) s
  { s with
    points := mapAll Point.warm s.points
    lastTaken := .scan
    primary := s.primary.warm
    maint := s.maint.warm
    scan := s.scan.warm
    bus := s.bus.warm
    notify := { s.notify with sets := Vector.replicate 8 [] } }

/-! ### CONTROL (R168) -/

/-- A write to CONTROL from a port (R168): WARM from the primary port is a warm reset and nothing else; otherwise
SCAN_RUN and NOTIFY_EN take the written values, and the port's DONE_INT does. -/
def writeControl (p : Port) (w : Word) (s : State) : State :=
  if p = .primary ∧ flag w 15 then s.warmReset
  else
    let s := (s.writeScanRun (flag w 0)).writeNotifyEn (flag w 1)
    s.setPort p { s.port p with doneInt := flag w 2 }

/-- The CONTROL word with these positions (R172). -/
def controlWord (scanRun notifyEn doneInt warm : Bool) : Word :=
  bitAt 0 scanRun ||| bitAt 1 notifyEn ||| bitAt 2 doneInt ||| bitAt 15 warm

/-! ### STATUS (R169) -/

/-- A write to STATUS from a port clears ORDER_ERR and that port's COLLISION where their positions hold 1 (R169). -/
def writeStatus (p : Port) (w : Word) (s : State) : State :=
  let s := if flag w 6 then { s with notify := { s.notify with orderErr := false } } else s
  if flag w 7 then s.setPort p { s.port p with collision := false } else s

/-- The STATUS word with these positions (R172). -/
def statusWord (orderErr collision : Bool) : Word := bitAt 6 orderErr ||| bitAt 7 collision

/-! ### CLASS_STATE (R60) -/

/-- Class `c` with its OVERRUN flag cleared where the written word holds 1 at position 4 + c (R60, R172). -/
def clearOverrun (s : State) (w : Word) (c : ClassNo) : State :=
  s.setClassState c { s.classState c with overrun := (s.classState c).overrun && !flag w (4 + c.val) }

/-- A write to CLASS_STATE (R60). -/
def writeClassState (w : Word) (s : State) : State :=
  (((s.clearOverrun w 0).clearOverrun w 1).clearOverrun w 2).clearOverrun w 3

end State

/-! ### The rows -/

/-- SCAN_RUN_SET (R74, R168). -/
def execScanRunSet (v : Via) (notifyEn doneInt : Bool) (s : State) : Host.Outcome State Fault Refusal :=
  done (s.portWrite v Reg.control (State.writeControl v.port (State.controlWord true notifyEn doneInt false)))

/-- SCAN_RUN_CLEAR (R73, R168). -/
def execScanRunClear (v : Via) (notifyEn doneInt : Bool) (s : State) : Host.Outcome State Fault Refusal :=
  done (s.portWrite v Reg.control (State.writeControl v.port (State.controlWord false notifyEn doneInt false)))

/-- NOTIFY_EN (R159, R168). -/
def execNotifyEn (v : Via) (on scanRun doneInt : Bool) (s : State) : Host.Outcome State Fault Refusal :=
  done (s.portWrite v Reg.control (State.writeControl v.port (State.controlWord scanRun on doneInt false)))

/-- DONE_INT (R160, R168). -/
def execDoneInt (v : Via) (on scanRun notifyEn : Bool) (s : State) : Host.Outcome State Fault Refusal :=
  done (s.portWrite v Reg.control (State.writeControl v.port (State.controlWord scanRun notifyEn on false)))

/-- WARM (R13, R168): from the primary port a warm reset; the maintenance port's WARM position is ignored and the other
positions are applied. -/
def execWarm (v : Via) (scanRun notifyEn doneInt : Bool) (s : State) : Host.Outcome State Fault Refusal :=
  done (s.portWrite v Reg.control (State.writeControl v.port (State.controlWord scanRun notifyEn doneInt true)))

/-- ORDER_ERR_CLEAR (R169). -/
def execOrderErrClear (v : Via) (collision : Bool) (s : State) : Host.Outcome State Fault Refusal :=
  done (s.portWrite v Reg.status (State.writeStatus v.port (State.statusWord true collision)))

/-- COLLISION_CLEAR (R169). -/
def execCollisionClear (v : Via) (orderErr : Bool) (s : State) : Host.Outcome State Fault Refusal :=
  done (s.portWrite v Reg.status (State.writeStatus v.port (State.statusWord orderErr true)))

/-- OVERRUN_CLEAR (R60): a write to CLASS_STATE. -/
def execOverrunClear (v : Via) (w : Word) (s : State) : Host.Outcome State Fault Refusal :=
  done (s.portWrite v Reg.classState (State.writeClassState w))

end Sys2Proof.Machine
end

