-- ==== Sys2Proof/Machine/Window.lean ====
section
/-! DEFINITION. The register window (R172): the word each address reads, and the effect of a write at each address. -/

namespace Sys2Proof.Machine

namespace State

/-- STATUS as port `p` reads it (R169, R172). -/
def statusView (s : State) (p : Port) : Word :=
  bitAt 0 s.loading ||| bitAt 1 s.loader.fail ||| bitAt 2 s.loader.partialLoad ||| bitAt 3 s.scan.run
    ||| bitAt 4 s.notify.notifyEn ||| bitAt 5 s.intAsserted ||| bitAt 6 s.notify.orderErr
    ||| bitAt 7 (s.port p).collision

/-- A slot as CMD and SLOT_STATE_OTHER read it: state in bits 9 to 8, last result code in bits 7 to 0 (R172). -/
def slotView (x : Slot) : Word :=
  place 8 (match x.state with | .idle => 0 | .busy _ => 1 | .done => 2) ||| place 0 x.result.toNat

/-- Entry `i` of the level order, placed at its nibble of LEVEL_ORDER_LO or LEVEL_ORDER_HI (R172). -/
def orderNibble (s : State) (i : Fin 8) (nib : Nat) : Word := place (4 * nib) (s.notify.order[i.val]).val

/-- ATTN_CONFIG_n as it reads (R145). -/
def attnConfigView (s : State) (n : Fin 4) : Word :=
  wordOf (s.line (highLine n)).configField (s.line (lowLine n)).configField

/-- CLAIM_LEVEL as port `p` reads it: selection present in bit 3, level in bits 2 to 0 (R172). Without a selection the spec
gives the level bits no value, and the model reads them 0 (DESIGN CHOICE, log 27). -/
def claimLevelView (s : State) (p : Port) : Word :=
  match (s.port p).claimLevel with
  | some v => bitAt 3 true ||| place 0 v.val
  | none => 0

/-- CLASS_STATE as it reads (R60, R172). -/
def classStateView (s : State) : Word :=
  flagsWord ((List.finRange 4).map fun c => (s.classState c).inPass)
    ||| (flagsWord ((List.finRange 4).map fun c => (s.classState c).overrun) <<< 4)
    ||| (match s.scan.sweep with
         | some r => bitAt 8 true ||| place 9 r.val
         | none => 0)

/-- The word register `addr` holds for port `p`, the part not LOADING (R172). The reads of CLAIM and BLK_DATA, which
have effects of their own, are `takeClaim` and `readBlkData`. -/
def fullView (s : State) (p : Port) (addr : BitVec 7) : Word :=
  match addr.toNat with
  | 0x00 => Config.ident
  | 0x01 => Config.revision
  | 0x02 => s.statusView p
  | 0x03 => bitAt 0 s.scan.run ||| bitAt 1 s.notify.notifyEn ||| bitAt 2 (s.port p).doneInt
  | 0x04 => slotView (s.slot p)
  | 0x05 => (s.port p).blkAddr.setWidth 16
  | 0x06 => (readBlkData p s).1
  | 0x07 => flagsWord ((List.finRange 8).map fun v => !(s.noticeSet v).isEmpty)
  | 0x08 => wordOf 0 s.notify.mask
  | 0x09 => wordOf 0 s.notify.type
  | 0x0A => s.orderNibble 0 0 ||| s.orderNibble 1 1 ||| s.orderNibble 2 2 ||| s.orderNibble 3 3
  | 0x0B => s.orderNibble 4 0 ||| s.orderNibble 5 1 ||| s.orderNibble 6 2 ||| s.orderNibble 7 3
  | 0x0C => (takeClaim p s).1
  | 0x0D => (s.port p).claimCauses
  | 0x0E => hiWord (s.port p).claimValue
  | 0x0F => loWord (s.port p).claimValue
  | 0x11 => s.claimLevelView p
  | 0x12 => s.attnConfigView 0
  | 0x13 => s.attnConfigView 1
  | 0x14 => s.attnConfigView 2
  | 0x15 => s.attnConfigView 3
  | 0x16 => flagsWord ((List.finRange 8).map fun l => (s.line l).live)
      ||| (flagsWord ((List.finRange 8).map fun l => (s.line l).edgeSeen) <<< 8)
  | 0x17 => flagsWord ((List.finRange 8).map s.pendingFlag)
  | 0x18 => s.classStateView
  | 0x19 => place 0 s.freeSegs.length
  | 0x1A => place 0 s.loader.rejects
  | 0x1B => slotView (s.slot (otherPort p))
  | _ => 0

/-- The word port `p` reads at `addr` (R166, R170, R172). While LOADING, IDENT, REVISION and STATUS read their values
and every other register 0 (R170). -/
def regView (s : State) (p : Port) (addr : BitVec 7) : Word :=
  if s.loading then (if addr.toNat ≤ 0x02 then s.fullView p addr else 0) else s.fullView p addr

/-- The state after a read of `addr` by port `p`: only CLAIM and BLK_DATA change it (R166). -/
def afterRead (s : State) (p : Port) (addr : BitVec 7) : State :=
  if addr = Reg.claim then (takeClaim p s).2
  else if addr = Reg.blkData then (readBlkData p s).2
  else s

/-- A word read through `v` from any register (R166): what the rows CLAIM and BLK_DATA_READ do at their addresses, and
the read of a register that has no row. -/
def readAny (s : State) (v : Via) (addr : BitVec 7) : State :=
  s.portRead v addr (s.regView v.port addr) fun t => (t.regView v.port addr, t.afterRead v.port addr)

/-- The effect of a write of `w` to `addr` from port `p`, the part not LOADING (R166, R172). A register marked R and an
unused address ignore it. For CLAIM, which is marked RC and not R, the spec does not say; the model ignores the write
(DESIGN CHOICE, log 28). -/
def writeAny (p : Port) (addr : BitVec 7) (w : Word) (s : State) : State :=
  match addr.toNat with
  | 0x02 => writeStatus p w s
  | 0x03 => writeControl p w s
  | 0x04 => writeCmd p w s
  | 0x05 => writeBlkAddr p w s
  | 0x06 => writeBlkData p w s
  | 0x08 => writeLevelMask w s
  | 0x09 => writeLevelType w s
  | 0x0A => writeLevelOrderLo p w s
  | 0x0B => writeLevelOrderHi p w s
  | 0x10 => writeAck w s
  | 0x11 => writeClaimLevel p w s
  | 0x12 => writeAttnConfig 0 w s
  | 0x13 => writeAttnConfig 1 w s
  | 0x14 => writeAttnConfig 2 w s
  | 0x15 => writeAttnConfig 3 w s
  | 0x16 => writeAttnState w s
  | 0x18 => writeClassState w s
  | _ => s

end State

/-- REGISTER_WRITE (R166): BLK_ADDR is stored, read-only registers and unused addresses ignore the write. A register
with a row of its own takes the effect of that row. -/
def execRegisterWrite (v : Via) (addr : BitVec 7) (w : Word) (s : State) : Host.Outcome State Fault Refusal :=
  done (s.portWrite v addr (State.writeAny v.port addr w))

end Sys2Proof.Machine
end

