-- ==== Sys2Proof/Machine/Boot.lean ====
section
/-! DEFINITION. Cold reset and the boot loader (chapter 10). -/

namespace Sys2Proof.Machine

/-- The verdict of the verify pass (R179). -/
inductive Verdict where
  | blank
  | bad
  | sound (regions points : Nat)
  deriving DecidableEq, Repr

/-- Words in an image of R region and P point records (R176). -/
def imageWords (regions points : Nat) : Nat := 12 + 6 * regions + 14 * points + 1

/-- The judgement of R179 on what the transaction delivered, none while the words delivered do not reach far enough for
any case to apply, so that the pass has not ended (log 15). -/
def verdict : EepromAnswer → Option Verdict
  | .failed => some .bad
  | .bytes bs =>
    match wordsOf bs with
    | [] => none
    | w0 :: rest =>
      if w0 = Config.blankWord then some .blank
      else if w0 ≠ Config.imageSignature then some .bad
      else match rest with
        | [] => none
        | w1 :: rest =>
          if w1 ≠ Config.imageVersion then some .bad
          else match rest with
            | [] => none
            | w2 :: rest =>
              if 8 < w2.toNat then some .bad
              else match rest with
                | [] => none
                | w3 :: _ =>
                  if 256 < w3.toNat then some .bad
                  else
                    let n := imageWords w2.toNat w3.toNat
                    if (wordsOf bs).length < n then none
                    else if sumWords ((wordsOf bs).take n) = 0 then some (.sound w2.toNat w3.toNat)
                    else some .bad

/-- The byte address at which the loader starts the verify pass and the header transaction of the apply pass (R176, R178).
-/
def headerAddress : Nat := 0

/-- The byte address of region record `i` (R176, R178). -/
def regionRecordAddress (i : Nat) : Nat := 2 * (12 + 6 * i)

/-- The byte address of point record `i` of an image with `regions` region records (R176, R178). -/
def pointRecordAddress (regions i : Nat) : Nat := 2 * (12 + 6 * regions + 14 * i)

/-- The byte address of the checksum word (R176, R178). -/
def checksumAddress (regions points : Nat) : Nat := 2 * (imageWords regions points - 1)

/-- A transaction that was to deliver `n` words: failed, these words, or not ended (none). -/
inductive Delivered where
  | failed
  | words (ws : List Word)
  | unfinished
  deriving DecidableEq, Repr

/-- What a transaction for `n` words delivered (R178). -/
def delivered (n : Nat) : EepromAnswer → Delivered
  | .failed => .failed
  | .bytes bs => if (wordsOf bs).length < n then .unfinished else .words ((wordsOf bs).take n)

namespace State

/-! ### The end of loading (R181, R182) -/

/-- Loading ends: DONE, so that LOADING is clear and the held blocks are released, and the scan engine counts as the
requester taken last (R182, R4). -/
def endLoading (s : State) : State :=
  { s with lastTaken := .scan, loader := { s.loader with state := .done } }

/-- Loading ends in a verify-pass failure: LOAD_FAIL (R179). -/
def failLoading (s : State) : State := { s with loader := { s.loader with fail := true } }.endLoading

/-- A class with its PERIOD and remaining count 0 (R181). -/
def stopClass (x : ClassState) : ClassState := { x with period := 0, remaining := 0 }

/-- The load is undone (R181): points, chains, pool, regions, periods and level controls as the cold reset left them
(the notice sets with the points, R6; they are empty throughout a load, R163, log 23), the counts of rejected records
dropped, the start flags dropped, and LOAD_FAIL set as loading ends. -/
def undoLoad (s : State) : State :=
  { s with
    points := Vector.replicate 256 Point.free
    chains := Vector.replicate 5 Chain.empty
    freeSegs := List.finRange 96
    bus := { s.bus with regions := Vector.replicate 8 Region.reset }
    scan := { s.scan with classes := mapAll stopClass s.scan.classes }
    notify := { s.notify with
      sets := Vector.replicate 8 [], mask := 0, type := 0, order := Notify.orderReset, orderErr := false }
    loader := { s.loader with
      rejects := 0, partialLoad := false, startScanRun := false, startNotifyEn := false } }.failLoading

/-! ### The passes (R179, R180) -/

/-- The verify pass ends with this verdict (R179). A sound image starts the apply pass with R and P kept and a fresh
sum. -/
def takeVerdict (s : State) : Verdict → State
  | .blank => s.endLoading
  | .bad => s.failLoading
  | .sound regions points =>
    { s with loader := { s.loader with
        state := .apply, regions := regions, points := points, headerDone := false, regionsDone := 0, pointsDone := 0,
        sum := 0 } }

/-- Words of the apply pass are added into its sum (R180). -/
def addSum (s : State) (ws : List Word) : State :=
  { s with loader := { s.loader with sum := s.loader.sum + sumWords ws } }

/-- The header's words 4 to 11 are applied together (R180): start flags kept, periods, level masks and types, and the
order where it is a permutation, else 0 to 7 with ORDER_ERR. -/
def applyHeader (s : State) (ws : List Word) : State :=
  let w := fun i => ws.getD i 0
  let s := (((s.restartClass 0 (w 5)).restartClass 1 (w 6)).restartClass 2 (w 7)).restartClass 3 (w 8)
  let s := { s with notify := { s.notify with
    mask := loByte (w 9), type := hiByte (w 9), order := Notify.orderReset } }
  let s := s.installOrder (w 10) (w 11)
  { s with loader := { s.loader with
      headerDone := true, startScanRun := flag (w 4) 0, startNotifyEn := flag (w 4) 1 } }

/-- A refused record adds 1 to LOAD_REJECTS and sets LOAD_PARTIAL (R180). -/
def reject (s : State) : State :=
  { s with loader := { s.loader with rejects := s.loader.rejects + 1, partialLoad := true } }

/-- A region record is applied as a SET_REGION from the primary port, its number in word 0, bits 7 to 0 (R180). -/
def applyRegionRecord (s : State) (ws : List Word) : State :=
  let w := fun i => ws.getD i 0
  let s := match s.storeRegion .primary (loByte (w 0)).toNat (Region.ofWords w) with
    | .ok s' => s'
    | .error _ => s.reject
  { s with loader := { s.loader with regionsDone := s.loader.regionsDone + 1 } }

/-- A point record is applied as a DEFINE of the point in word 0, bits 7 to 0, with the definition in words 1 to 13
(R180). -/
def applyPointRecord (s : State) (ws : List Word) : State :=
  let n : PointNo := (loByte (ws.getD 0 0)).toFin
  let s :=
    if (s.point n).state = .free then
      match s.checkDefinition (RawDef.ofWords fun i => ws.getD (i + 1) 0) none 0 with
      | .ok d => s.defineCore n d
      | .error _ => s.reject
    else s.reject
  { s with loader := { s.loader with pointsDone := s.loader.pointsDone + 1 } }

/-- A completed apply pass ends loading, the start flags applied as a CONTROL write of their values would (R180, R182).
-/
def completeLoading (s : State) : State :=
  let run := s.loader.startScanRun
  let notifyEn := s.loader.startNotifyEn
  ((s.endLoading).writeScanRun run).writeNotifyEn notifyEn

/-! ### Where the apply pass stands (R180) -/

/-- The header transaction is the next of the apply pass. -/
def expectsHeader (s : State) : Bool := s.loader.state == .apply && !s.loader.headerDone

/-- A region record transaction is the next. -/
def expectsRegion (s : State) : Bool :=
  s.loader.state == .apply && s.loader.headerDone && decide (s.loader.regionsDone < s.loader.regions)

/-- A point record transaction is the next. -/
def expectsPoint (s : State) : Bool :=
  s.loader.state == .apply && s.loader.headerDone && decide (s.loader.regions ≤ s.loader.regionsDone)
    && decide (s.loader.pointsDone < s.loader.points)

/-- The checksum transaction is the next. -/
def expectsChecksum (s : State) : Bool :=
  s.loader.state == .apply && s.loader.headerDone && decide (s.loader.regions ≤ s.loader.regionsDone)
    && decide (s.loader.points ≤ s.loader.pointsDone)

/-! ### The loader's transactions (R178) -/

/-- The byte address at which the loader starts its present transaction: byte 0 for the verify pass, and the first byte of
the header, of the next record or of the checksum word in the apply pass; none once loading has ended (R178). -/
def startAddress (s : State) : Option Word :=
  let l := s.loader
  match l.state with
  | .verify => some (BitVec.ofNat 16 headerAddress)
  | .apply => some (BitVec.ofNat 16 (
      if !l.headerDone then headerAddress
      else if l.regionsDone < l.regions then regionRecordAddress l.regionsDone
      else if l.pointsDone < l.points then pointRecordAddress l.regions l.pointsDone
      else checksumAddress l.regions l.points))
  | .done => none

/-- Whether a transaction is the one the loader makes now: to the EEPROM's address, started at the byte address its place in
the load gives (R178). -/
def makes (s : State) (r : EepromRead) : Bool := r.device == Config.eepromAddress && s.startAddress == some r.start

/-- A transaction of the apply pass for `n` words ends (R178, R180, R181): its failure undoes the load, and its words
are added into the sum and applied. One that has not delivered its words has not ended (log 15). -/
def applyTransaction (s : State) (n : Nat) (r : EepromAnswer) (apply : State → List Word → State) : State :=
  match delivered n r with
  | .failed => s.undoLoad
  | .words ws => apply (s.addSum ws) ws
  | .unfinished => s

/-- The sum at the end of the apply pass is judged (R180, R181). -/
def judgeSum (s : State) (_ws : List Word) : State := if s.loader.sum = 0 then s.completeLoading else s.undoLoad

/-! ### Cold reset (R177) -/

/-- The primary port's transfer after a cold reset: with SCS_N still low it is abandoned until SCS_N rises, and with SCS_N
risen by then the port is ready for a new transfer (R164). -/
def spiAfterReset (scsLow : Bool) : Spi := if scsLow then .abandoned else .ready

/-- SDO after a cold reset: undriven while SCS_N is high; the spec does not say what it does in an abandoned transfer (R164,
log 26). -/
def sdoAfterReset (scsLow : Bool) : Sdo := if scsLow then .unstated else .undriven

/-- The cold reset (R177): every block at its cold reset values, the levels of the input pins as they are, MADR sampled
(R165), and the queue of events kept. -/
def coldReset (s : State) (madrHigh scsLow : Bool) : State :=
  { State.reset with
    spi := spiAfterReset scsLow
    sdo := sdoAfterReset scsLow
    i2cAddr := Config.i2cAddress madrHigh
    backAsserted := s.backAsserted
    lines := mapAll (fun x : Line => ⟨.off, 0, x.live, false⟩) s.lines
    pending := s.pending }

end State

/-! ### The rows -/

/-- COLD_RESET (R177). -/
def execColdReset (madrHigh scsLow : Bool) (s : State) : Host.Outcome State Fault Refusal :=
  done (s.coldReset madrHigh scsLow)

/-- VERIFY_PASS (R179): the loader's transaction from byte 0 (R178) ends. -/
def execVerifyPass (r : EepromRead) (s : State) : Host.Outcome State Fault Refusal :=
  if s.loader.state = .verify ∧ s.makes r then
    match verdict r.answer with
    | some v => done (s.takeVerdict v)
    | none => done s
  else done s

/-- LOAD_HEADER (R180). -/
def execLoadHeader (r : EepromRead) (s : State) : Host.Outcome State Fault Refusal :=
  if s.expectsHeader && s.makes r then done (s.applyTransaction 12 r.answer State.applyHeader) else done s

/-- LOAD_REGION_RECORD (R180). -/
def execLoadRegionRecord (r : EepromRead) (s : State) : Host.Outcome State Fault Refusal :=
  if s.expectsRegion && s.makes r then done (s.applyTransaction 6 r.answer State.applyRegionRecord) else done s

/-- LOAD_POINT_RECORD (R180). -/
def execLoadPointRecord (r : EepromRead) (s : State) : Host.Outcome State Fault Refusal :=
  if s.expectsPoint && s.makes r then done (s.applyTransaction 14 r.answer State.applyPointRecord) else done s

/-- LOAD_CHECKSUM (R180, R181, R182). -/
def execLoadChecksum (r : EepromRead) (s : State) : Host.Outcome State Fault Refusal :=
  if s.expectsChecksum && s.makes r then done (s.applyTransaction 1 r.answer State.judgeSum) else done s

end Sys2Proof.Machine
end

