-- ==== Sys2Proof/Machine/Dispatch.lean ====
section
/-! DEFINITION. One arm per command or event of the table, each a direct call of its meaning. -/

namespace Sys2Proof.Machine

def exec (i : Instr) (s : State) : Host.Outcome State Fault Refusal :=
  match i with
  | .define p => Sys2Proof.Machine.execDefine p s
  | .modify p => Sys2Proof.Machine.execModify p s
  | .retire p => Sys2Proof.Machine.execRetire p s
  | .hold p => Sys2Proof.Machine.execHold p s
  | .release p => Sys2Proof.Machine.execRelease p s
  | .read p => Sys2Proof.Machine.execRead p s
  | .readNow p => Sys2Proof.Machine.execReadNow p s
  | .write p => Sys2Proof.Machine.execWrite p s
  | .setRegion p => Sys2Proof.Machine.execSetRegion p s
  | .getRegion p => Sys2Proof.Machine.execGetRegion p s
  | .setClass p => Sys2Proof.Machine.execSetClass p s
  | .getClass p => Sys2Proof.Machine.execGetClass p s
  | .clearAll p => Sys2Proof.Machine.execClearAll p s
  | .dismiss v operand => Sys2Proof.Machine.execDismiss v operand s
  | .badCommand p => Sys2Proof.Machine.execBadCommand p s
  | .accessStart => Sys2Proof.Machine.execAccessStart s
  | .beatRelease => Sys2Proof.Machine.execBeatRelease s
  | .beatAcknowledge bd => Sys2Proof.Machine.execBeatAcknowledge bd s
  | .selfPacedBeatEnd bd => Sys2Proof.Machine.execSelfPacedBeatEnd bd s
  | .beatTimeout => Sys2Proof.Machine.execBeatTimeout s
  | .accessCompletion => Sys2Proof.Machine.execAccessCompletion s
  | .timebaseTick periods => Sys2Proof.Machine.execTimebaseTick periods s
  | .classTimerExpiry c => Sys2Proof.Machine.execClassTimerExpiry c s
  | .scanChoose => Sys2Proof.Machine.execScanChoose s
  | .visit => Sys2Proof.Machine.execVisit s
  | .atnEvent line high => Sys2Proof.Machine.execAtnEvent line high s
  | .attentionFlagSetAgain line => Sys2Proof.Machine.execAttentionFlagSetAgain line s
  | .attnConfigWrite v n w => Sys2Proof.Machine.execAttnConfigWrite v n w s
  | .edgeSeenClear v w => Sys2Proof.Machine.execEdgeSeenClear v w s
  | .overrunClear v w => Sys2Proof.Machine.execOverrunClear v w s
  | .claim v => Sys2Proof.Machine.execClaim v s
  | .claimLevel v w => Sys2Proof.Machine.execClaimLevel v w s
  | .ack v w => Sys2Proof.Machine.execAck v w s
  | .levelMask v w => Sys2Proof.Machine.execLevelMask v w s
  | .levelType v w => Sys2Proof.Machine.execLevelType v w s
  | .levelOrderLo v w => Sys2Proof.Machine.execLevelOrderLo v w s
  | .levelOrderHi v w => Sys2Proof.Machine.execLevelOrderHi v w s
  | .scanRunSet v notifyEn doneInt => Sys2Proof.Machine.execScanRunSet v notifyEn doneInt s
  | .scanRunClear v notifyEn doneInt => Sys2Proof.Machine.execScanRunClear v notifyEn doneInt s
  | .notifyEn v on scanRun doneInt => Sys2Proof.Machine.execNotifyEn v on scanRun doneInt s
  | .doneInt v on scanRun notifyEn => Sys2Proof.Machine.execDoneInt v on scanRun notifyEn s
  | .warm v scanRun notifyEn doneInt => Sys2Proof.Machine.execWarm v scanRun notifyEn doneInt s
  | .orderErrClear v collision => Sys2Proof.Machine.execOrderErrClear v collision s
  | .collisionClear v orderErr => Sys2Proof.Machine.execCollisionClear v orderErr s
  | .blkDataRead v => Sys2Proof.Machine.execBlkDataRead v s
  | .blkDataWrite v w => Sys2Proof.Machine.execBlkDataWrite v w s
  | .pointerWrite target pointer => Sys2Proof.Machine.execPointerWrite target pointer s
  | .registerWrite v addr w => Sys2Proof.Machine.execRegisterWrite v addr w s
  | .coldReset madrHigh scsLow => Sys2Proof.Machine.execColdReset madrHigh scsLow s
  | .verifyPass r => Sys2Proof.Machine.execVerifyPass r s
  | .loadHeader r => Sys2Proof.Machine.execLoadHeader r s
  | .loadRegionRecord r => Sys2Proof.Machine.execLoadRegionRecord r s
  | .loadPointRecord r => Sys2Proof.Machine.execLoadPointRecord r s
  | .loadChecksum r => Sys2Proof.Machine.execLoadChecksum r s
  | .cmdWrite v w => Sys2Proof.Machine.execCmdWrite v w s
  | .commandByte b => Sys2Proof.Machine.execCommandByte b s
  | .transferEnd => Sys2Proof.Machine.execTransferEnd s

end Sys2Proof.Machine
end

