-- ==== Sys2Proof/WellFormed.lean ====
section
/-! DEFINITION. Which terms of Instr stand for a command or event the part can meet. The meanings are total: an ill-formed term also has one. -/

namespace Sys2Proof

/-- The line is one the part answers on: SPI, or I2C with one of its two target addresses (R165). -/
def Via.wellFormed : Via → Bool
  | .spi => true
  | .i2c target => target == 0x4C || target == 0x4D

/-- The register addresses whose writes have a row of their own in the table (R172): STATUS, CONTROL, CMD, BLK_DATA,
the level registers, ACK, CLAIM_LEVEL, ATTN_CONFIG_0 to 3, ATTN_STATE and CLASS_STATE. -/
def ownBehaviour (addr : BitVec 7) : Bool :=
  [0x02, 0x03, 0x04, 0x06, 0x08, 0x09, 0x0A, 0x0B, 0x10, 0x11, 0x12, 0x13, 0x14, 0x15, 0x16, 0x18].contains addr.toNat

/-- A transaction to the EEPROM's address that starts at a word of the image (R176, R178). -/
def EepromRead.addressed (r : EepromRead) : Bool := r.device == Config.eepromAddress && r.start.toNat % 2 == 0

/-- Such a transaction that failed, or one that delivered exactly `n` bytes (R176, R178). -/
def EepromRead.hasBytes (r : EepromRead) (n : Nat) : Bool :=
  r.addressed && match r.answer with
    | .failed => true
    | .bytes bs => bs.length == n

/-- Well-formedness of a command: the line is one of the part's, a REGISTER_WRITE names a register with no behaviour
of its own (R166), and an EEPROM transaction delivers the bytes its part of the image has (R176). -/
def Instr.wellFormed : Instr → Bool
  | .define _ | .modify _ | .retire _ | .hold _ | .release _ | .read _ | .readNow _ | .write _ => true
  | .setRegion _ | .getRegion _ | .setClass _ | .getClass _ | .clearAll _ | .badCommand _ => true
  | .dismiss v _ => v.wellFormed
  | .accessStart | .beatRelease | .beatAcknowledge _ | .selfPacedBeatEnd _ | .beatTimeout | .accessCompletion => true
  | .timebaseTick _ | .classTimerExpiry _ | .scanChoose | .visit => true
  | .atnEvent _ _ | .attentionFlagSetAgain _ => true
  | .attnConfigWrite v _ _ => v.wellFormed
  | .edgeSeenClear v _ | .overrunClear v _ | .claim v | .claimLevel v _ | .ack v _ => v.wellFormed
  | .levelMask v _ | .levelType v _ | .levelOrderLo v _ | .levelOrderHi v _ => v.wellFormed
  | .scanRunSet v _ _ | .scanRunClear v _ _ | .notifyEn v _ _ _ | .doneInt v _ _ _ | .warm v _ _ _ => v.wellFormed
  | .orderErrClear v _ | .collisionClear v _ | .blkDataRead v | .blkDataWrite v _ => v.wellFormed
  | .pointerWrite _ _ => true
  | .registerWrite v addr _ => v.wellFormed && !ownBehaviour addr
  | .coldReset _ _ => true
  | .verifyPass r => r.addressed && match r.answer with
    | .failed => true
    | .bytes bs => bs.length % 2 == 0 && decide (2 ≤ bs.length) && decide (bs.length ≤ 7290)
  | .loadHeader r => r.hasBytes 24
  | .loadRegionRecord r => r.hasBytes 12
  | .loadPointRecord r => r.hasBytes 28
  | .loadChecksum r => r.hasBytes 2
  | .cmdWrite v _ => v.wellFormed
  | .commandByte _ | .transferEnd => true

end Sys2Proof
end

