-- ==== Sys2Proof/Safety.lean ====
section
/-! DEFINITION. What it is for the part's state to be in order: the standing facts the chapters state about the table, the chains, the pool, the sets and the engines. Claims use them as premises and as invariants. -/

namespace Sys2Proof.Machine

/-- Check 1 of R3 on a definition block (R173): every field its KIND uses holds a value of its set or range, OFFSET is
aligned, the thresholds and limits are in order, and a MODIFY keeps the record's KIND. -/
def RawDef.FieldsValid (raw : RawDef) (mustBe : Option Kind) : Prop :=
  ∃ k, raw.kind = some k ∧ (mustBe = none ∨ mustBe = some k) ∧ (∃ c, raw.cls = some c) ∧ raw.region < 8 ∧
    (k ≠ .block → ∃ w, raw.width = some w ∧ raw.offset.toNat % w.bytes = 0) ∧
    (k = .block → raw.offset.toNat % 2 = 0 ∧ 1 ≤ raw.blockLen ∧ raw.blockLen ≤ 32) ∧
    1 ≤ raw.staleAt ∧ raw.staleAt ≤ raw.faultAt ∧ raw.faultAt ≤ 15 ∧
    (k = .input → raw.limits = true → reading raw.signed raw.low ≤ reading raw.signed raw.high)

/-- The definition taken from a valid block (R3): each field the kind uses has the block's value, each other field its
FREE value, and a BLOCK point WIDTH 16. -/
def RawDef.Gives (raw : RawDef) (d : Definition) : Prop :=
  raw.kind = some d.kind ∧ raw.cls = some d.cls ∧ raw.region = d.region.val ∧ d.level = raw.level ∧
  d.offset = raw.offset ∧ d.staleAt = raw.staleAt ∧ d.faultAt = raw.faultAt ∧ d.causeEn = raw.causeEn ∧
  match d.kind with
  | .input =>
    raw.width = some d.width ∧ d.signed = raw.signed ∧ d.attnRead = raw.attnRead ∧ d.limits = raw.limits ∧
    d.deadband = raw.deadband ∧
    (d.low, d.high, d.hyst) = (if raw.limits then (raw.low, raw.high, raw.hyst) else (0, 0, 0)) ∧
    d.verify = false ∧ d.prefixed = false ∧ d.blockLen = 0 ∧ d.initShadow = 0
  | .output =>
    raw.width = some d.width ∧ d.verify = raw.verify ∧ d.initShadow = raw.initShadow ∧
    d.signed = false ∧ d.attnRead = false ∧ d.limits = false ∧ d.deadband = 0 ∧
    (d.low, d.high, d.hyst) = (0, 0, 0) ∧ d.prefixed = false ∧ d.blockLen = 0
  | .block =>
    d.width = .w16 ∧ d.attnRead = raw.attnRead ∧ d.prefixed = raw.prefixed ∧ d.blockLen = raw.blockLen ∧
    d.signed = false ∧ d.verify = false ∧ d.limits = false ∧ d.deadband = 0 ∧
    (d.low, d.high, d.hyst) = (0, 0, 0) ∧ d.initShadow = 0

/-- The field checks of R51 on a region record. -/
def Region.Valid (g : Region) : Prop :=
  g.sizeCode.toNat ≤ 16 ∧ g.base.toNat % (256 * 2 ^ g.sizeCode.toNat) = 0 ∧
  (g.pacing = .selfPaced → g.accessTime ≠ 0) ∧ (g.pacing = .device → g.timeout ≠ 0)

namespace State

/-- Notice sets and causes agree (R148): each set is in ascending order with no number twice, and a point is a member
of the set of level v exactly when its CAUSES is non-empty and its LEVEL is v. -/
def NoticesAgree (s : State) : Prop :=
  (∀ v, (s.noticeSet v).Pairwise (· < ·)) ∧
  ∀ n v, n ∈ s.noticeSet v ↔ (s.point n).causes ≠ 0 ∧ (s.point n).level = v

/-- Records out of use are quiet: a FREE record holds the values of R2, and a RETIRING one has empty CAUSES (R6), HOLDER
NONE (R23) and WRITE_AGAIN clear (R12). -/
def RecordsQuiet (s : State) : Prop :=
  ∀ n, ((s.point n).state = .free → s.point n = Point.free) ∧
    ((s.point n).state = .retiring →
      (s.point n).causes = 0 ∧ (s.point n).holder = none ∧ (s.point n).writeAgain = false)

/-- Health and counters agree for every point in use (R9): thresholds in order, FAILS at most FAULT_AT, FAULTED exactly
at FAULT_AT, STALE exactly from STALE_AT to below FAULT_AT, and PROBE at most 7 (R1). -/
def HealthAgrees (s : State) : Prop :=
  ∀ n, (s.point n).state.isDefined = true →
    1 ≤ (s.point n).staleAt ∧ (s.point n).staleAt ≤ (s.point n).faultAt ∧ (s.point n).fails ≤ (s.point n).faultAt ∧
    ((s.point n).state = .faulted ↔ (s.point n).fails = (s.point n).faultAt) ∧
    ((s.point n).state = .stale ↔ (s.point n).staleAt ≤ (s.point n).fails ∧ (s.point n).fails < (s.point n).faultAt) ∧
    (s.point n).probe ≤ 7

/-- The point whose access has started and not completed (R121). -/
def accessPoint (s : State) : Option PointNo :=
  match s.bus.phase with
  | .running g _ | .reporting g _ _ => some g.point
  | .idle | .granted _ => none

/-- IN_FLIGHT and the backplane engine agree: at most one point has an access in flight, and it is the engine's (R24);
a RETIRING point always has one (R12), REDEFINED and WRITE_AGAIN stand only while there is one (R26), and a FREE point
has none. -/
def FlightAgrees (s : State) : Prop :=
  ∀ n, ((s.point n).inFlight ≠ .none ↔ s.accessPoint = some n) ∧
    ((s.point n).state = .retiring → (s.point n).inFlight ≠ .none) ∧
    ((s.point n).redefined = true ∨ (s.point n).writeAgain = true → (s.point n).inFlight ≠ .none) ∧
    ((s.point n).state = .free → (s.point n).inFlight = .none)

/-- The pool is divided (R100, R104): the free list is ascending; each segment is on it or in the SEGMENTS list of
exactly one point, and not both; a point holds as many segments as its BLOCK_LEN needs; and a BLOCK point in use has a
BLOCK_LEN of 1 to 32 (R1). -/
def PoolAgrees (s : State) : Prop :=
  s.freeSegs.Pairwise (· < ·) ∧
  (∀ g, g ∈ s.freeSegs ↔ ∀ n, g ∉ (s.point n).segments) ∧
  (∀ n m g, g ∈ (s.point n).segments → g ∈ (s.point m).segments → n = m) ∧
  (∀ n, (s.point n).segments.Nodup ∧ (s.point n).segments.length = segmentsFor (s.point n).blockLen) ∧
  ∀ n, (s.point n).state.isDefined = true → (s.point n).kind = .block →
    1 ≤ (s.point n).blockLen ∧ (s.point n).blockLen ≤ 32

/-- Following NEXT from `h` visits the members of the list in order and ends at END. -/
def Linked (s : State) : Option PointNo → List PointNo → Prop
  | h, [] => h = none
  | h, p :: ps => h = some p ∧ Linked s (s.point p).next ps

/-- The chain of `c` holds the points of `l` in this order (R14): following NEXT from HEAD visits each once and ends at
TAIL, and LENGTH counts them. -/
def ChainIs (s : State) (c : ClassSel) (l : List PointNo) : Prop :=
  s.Linked (s.chain c).head l ∧ l.Nodup ∧ (s.chain c).tail = l.getLast? ∧ (s.chain c).length = l.length

/-- Chains and records agree (R14): each chain's members are the points in use whose CLASS names it. -/
def ChainsAgree (s : State) : Prop :=
  ∀ c : ClassSel, ∃ l : List PointNo,
    s.ChainIs c l ∧ ∀ n, n ∈ l ↔ (s.point n).state.isDefined = true ∧ (s.point n).cls = c

/-- Pass states and cursors agree: a class is IN_PASS exactly when its cursor is not END (R63), and the cursor names a
point still linked on the class's chain (R64). -/
def CursorsAgree (s : State) : Prop :=
  ∀ c : ClassNo, ((s.classState c).inPass = (s.classState c).cursor.isSome) ∧
    ∀ n, (s.classState c).cursor = some n → (s.point n).state.isDefined = true ∧ (s.point n).cls = some c

/-- With SCAN_RUN clear no pass and no sweep is in progress (R73, R74). -/
def ScanQuiet (s : State) : Prop :=
  s.scan.run = false → s.scan.sweep = none ∧
    ∀ c, (s.classState c).inPass = false ∧ (s.classState c).cursor = none

/-- While LOADING everything but the boot loader and the table is held: the engine is IDLE with an empty request table
(R137), both slots are IDLE (R27), the scan engine has nothing in progress and SCAN_RUN is clear (R55), every notice set is
empty and NOTIFY_EN is clear (R161, R163). -/
def LoadingQuiet (s : State) : Prop :=
  s.loading = true →
    s.bus.phase = .idle ∧ (∀ r, s.entry r = none) ∧ (∀ p, (s.slot p).state = .idle) ∧
    s.scan.run = false ∧ s.scan.req = .free ∧ (∀ v, s.noticeSet v = []) ∧ s.notify.notifyEn = false

/-- The level order holds each level exactly once (R151). -/
def OrderAgrees (s : State) : Prop := s.notify.order.toList.Nodup

/-- An IDLE engine has nothing waiting: a request placed in IDLE is granted at once (R122, R123). -/
def EngineAgrees (s : State) : Prop := s.bus.phase = .idle → ∀ r, s.entry r = none

/-- All the standing facts together. -/
structure Consistent (s : State) : Prop where
  notices : s.NoticesAgree
  records : s.RecordsQuiet
  health : s.HealthAgrees
  flight : s.FlightAgrees
  pool : s.PoolAgrees
  chains : s.ChainsAgree
  cursors : s.CursorsAgree
  scan : s.ScanQuiet
  load : s.LoadingQuiet
  order : s.OrderAgrees
  engine : s.EngineAgrees

/-! ### When an event is due -/

/-- The table engine takes the command `c` of port `p` next, and its code names `name` (R4, R28). -/
def NextCommand (s : State) (p : Port) (name : CmdName) (c : Command) : Prop :=
  s.tableTurn = some (.slot p) ∧ s.busyWith p = some c ∧ CmdName.ofCode c.code = name

/-- The port takes a word written through `v` to register `addr`, the part not LOADING (R164, R165, R170). -/
def WritesTo (s : State) (v : Via) (addr : BitVec 7) : Prop := s.takesWord v false addr = true ∧ s.loading = false

/-- The port takes a word read through `v` from register `addr`, the part not LOADING (R164, R165, R170). -/
def ReadsFrom (s : State) (v : Via) (addr : BitVec 7) : Prop := s.takesWord v true addr = true ∧ s.loading = false

/-- The event `i` ends the beat of the running access with success, with `bd` on the data path: the acknowledge of a
device-paced beat in its acknowledge stage (R133), or the end of a self-paced beat after ACCESS_TIME periods (R132). -/
def BeatEnds (s : State) (i : Instr) (g : Grant) (a : Access) (bd : Word) : Prop :=
  s.bus.phase = .running g a ∧
  ((i = .beatAcknowledge bd ∧ a.stage = .acknowledge ∧ a.cap.pacing = .device) ∨
   (i = .selfPacedBeatEnd bd ∧ a.stage = .timed ∧ a.cap.pacing = .selfPaced ∧ a.cap.accessTime.toNat ≤ a.clks))

/-- The table engine takes the completion `c` of the access of grant `g` next (R4, R136). -/
def NextCompletion (s : State) (g : Grant) (c : Completion) : Prop :=
  (∃ a, s.bus.phase = .reporting g a c) ∧ s.loading = false

/-- A completion that is counted: its point is in use and REDEFINED is clear (R25). -/
def Counted (s : State) (g : Grant) : Prop :=
  (s.point g.point).state.isDefined = true ∧ (s.point g.point).redefined = false

/-- The slot of port `p` waits, with a command of this name, in this phase for point `n` (R32). -/
def WaitsIn (s : State) (p : Port) (name : CmdName) (ph : CmdPhase) (n : PointNo) : Prop :=
  ∃ c, s.busyWith p = some c ∧ CmdName.ofCode c.code = name ∧ c.phase = ph ∧ operandPoint c = n

/-! ### What an event leaves: the parts claims about single events share -/

/-- The row by which the table engine takes a command of this name; DISMISS is not passed to it (R30). -/
def commandRow : CmdName → Port → Option Instr
  | .define, p => some (.define p)
  | .modify, p => some (.modify p)
  | .retire, p => some (.retire p)
  | .hold, p => some (.hold p)
  | .release, p => some (.release p)
  | .read, p => some (.read p)
  | .readNow, p => some (.readNow p)
  | .write, p => some (.write p)
  | .setRegion, p => some (.setRegion p)
  | .getRegion, p => some (.getRegion p)
  | .setClass, p => some (.setClass p)
  | .getClass, p => some (.getClass p)
  | .clearAll, p => some (.clearAll p)
  | .dismiss, _ => none
  | .unknown, p => some (.badCommand p)

/-- The line and register of a row that is a register write (R166). -/
def registerWritten : Instr → Option (Via × BitVec 7)
  | .dismiss v _ | .cmdWrite v _ => some (v, Reg.cmd)
  | .attnConfigWrite v n _ => some (v, Reg.attnConfig n)
  | .edgeSeenClear v _ => some (v, Reg.attnState)
  | .overrunClear v _ => some (v, Reg.classState)
  | .claimLevel v _ => some (v, Reg.claimLevel)
  | .ack v _ => some (v, Reg.ack)
  | .levelMask v _ => some (v, Reg.levelMask)
  | .levelType v _ => some (v, Reg.levelType)
  | .levelOrderLo v _ => some (v, Reg.levelOrderLo)
  | .levelOrderHi v _ => some (v, Reg.levelOrderHi)
  | .scanRunSet v _ _ | .scanRunClear v _ _ | .notifyEn v _ _ _ | .doneInt v _ _ _ | .warm v _ _ _ =>
    some (v, Reg.control)
  | .orderErrClear v _ | .collisionClear v _ => some (v, Reg.status)
  | .blkDataWrite v _ => some (v, Reg.blkData)
  | .registerWrite v addr _ => some (v, addr)
  | _ => none

/-- The line and register of a row that is a register read (R166). -/
def registerRead : Instr → Option (Via × BitVec 7)
  | .claim v => some (v, Reg.claim)
  | .blkDataRead v => some (v, Reg.blkData)
  | _ => none

/-- The part would not produce the event now (log 2), row by row; while LOADING that holds for every start, completion,
expiry and register write. -/
inductive NotDue (s : State) : Instr → Prop
  /-- No access waits to start. -/
  | start (h : (∀ g, s.bus.phase ≠ .granted g) ∨ s.loading = true) : NotDue s .accessStart
  /-- No completion waits to be reported. -/
  | completion (h : (∀ g a x, s.bus.phase ≠ .reporting g a x) ∨ s.loading = true) : NotDue s .accessCompletion
  /-- No self-paced beat has run its ACCESS_TIME. -/
  | beatEnd (bd : Word)
      (h : ∀ g a, s.bus.phase = .running g a → a.stage ≠ .timed ∨ a.clks < a.cap.accessTime.toNat) :
      NotDue s (.selfPacedBeatEnd bd)
  /-- No beat has waited its TIMEOUT. -/
  | timeout (h : ∀ g a, s.bus.phase = .running g a → a.stage = .timed ∨ a.ticks < a.cap.timeout.toNat * 8) :
      NotDue s .beatTimeout
  /-- The class's timer does not stand at 0, or does not run. -/
  | expiry (c : ClassNo) (h : s.scan.run = false ∨ s.loading = true ∨ (s.classState c).period = 0 ∨
      (s.classState c).remaining ≠ 0) : NotDue s (.classTimerExpiry c)
  /-- The pin has the level already. -/
  | atn (k : LineNo) : NotDue s (.atnEvent k (s.line k).live)
  /-- The SPI port is inside a transfer or outside every transfer. -/
  | byte (b : Byte) (h : s.spi ≠ .ready) : NotDue s (.commandByte b)
  /-- The loader does not verify. -/
  | verify (r : EepromRead) (h : s.loader.state ≠ .verify) : NotDue s (.verifyPass r)
  /-- The header is not the loader's next transaction. -/
  | header (r : EepromRead) (h : ¬ (s.loader.state = .apply ∧ s.loader.headerDone = false)) : NotDue s (.loadHeader r)
  /-- A region record is not the loader's next transaction. -/
  | region (r : EepromRead) (h : ¬ (s.loader.state = .apply ∧ s.loader.headerDone = true ∧
      s.loader.regionsDone < s.loader.regions)) : NotDue s (.loadRegionRecord r)
  /-- A point record is not the loader's next transaction. -/
  | point (r : EepromRead) (h : ¬ (s.loader.state = .apply ∧ s.loader.headerDone = true ∧
      s.loader.regions ≤ s.loader.regionsDone ∧ s.loader.pointsDone < s.loader.points)) : NotDue s (.loadPointRecord r)
  /-- The checksum is not the loader's next transaction. -/
  | checksum (r : EepromRead) (h : ¬ (s.loader.state = .apply ∧ s.loader.headerDone = true ∧
      s.loader.regions ≤ s.loader.regionsDone ∧ s.loader.points ≤ s.loader.pointsDone)) : NotDue s (.loadChecksum r)
  /-- The loader's present transaction has another device address or start (R178). -/
  | address (i : Instr) (r : EepromRead)
      (hi : i = .verifyPass r ∨ i = .loadHeader r ∨ i = .loadRegionRecord r ∨ i = .loadPointRecord r ∨ i = .loadChecksum r)
      (h : r.device ≠ 0x50 ∨ s.startAddress ≠ some r.start) : NotDue s i
  /-- The transaction of the apply pass has not delivered its words (log 15). -/
  | unfinished (i : Instr) (d : BitVec 7) (x : Word) (bs : List Byte)
      (h : (i = .loadHeader ⟨d, x, .bytes bs⟩ ∧ bs.length < 24) ∨ (i = .loadRegionRecord ⟨d, x, .bytes bs⟩ ∧ bs.length < 12) ∨
        (i = .loadPointRecord ⟨d, x, .bytes bs⟩ ∧ bs.length < 28) ∨ (i = .loadChecksum ⟨d, x, .bytes bs⟩ ∧ bs.length < 2)) :
      NotDue s i
  /-- The port is not in a transfer that writes the register, or the part is LOADING. -/
  | write (i : Instr) (v : Via) (addr : BitVec 7) (hi : registerWritten i = some (v, addr))
      (h : s.takesWord v false addr = false ∨ s.loading = true) : NotDue s i

/-- From `s` to `t` the command of port `p` completes with this code and result area (R31) and counts as the request
taken last (R4); nothing else of either port changes. -/
def Completed (s t : State) (p : Port) (code : ResultCode) (area : Vector Word 64) : Prop :=
  t.lastTaken = .slot p ∧ t.port p = { s.port p with slot := { state := .done, result := code, area := area } } ∧
  t.port (otherPort p) = s.port (otherPort p)

/-- From `s` to `t` the command `c` of port `p` is taken and goes on waiting in phase `ph` (R32); nothing else of either
port changes. -/
def GoesOn (s t : State) (p : Port) (c : Command) (ph : CmdPhase) : Prop :=
  t.lastTaken = .slot p ∧
  t.port p = { s.port p with slot := { s.slot p with state := .busy { c with phase := ph } } } ∧
  t.port (otherPort p) = s.port (otherPort p)

/-- Nothing but the slots and the order of the table engine differs. -/
def SlotsOnly (s t : State) : Prop := t = { s with lastTaken := t.lastTaken, primary := t.primary, maint := t.maint }

/-- The event `i` completes the command of port `p` with this refusal code, a zero result area, and nothing else
changed (R31, R33). -/
def RefusedWith (s : State) (i : Instr) (p : Port) (code : ResultCode) : Prop :=
  ∃ t, exec i s = .next t ∧ s.Completed t p code zeroArea ∧ s.SlotsOnly t

/-- Every record but that of `n` is as it was, but for NEXT, which chain operations change (R15, R16). -/
def OthersKept (s t : State) (n : PointNo) : Prop :=
  ∀ m, m ≠ n → t.point m = { s.point m with next := (t.point m).next }

/-- Point `n` has left its chain, the others keeping their order (R16), and a pass of its class whose cursor it was has
moved to its successor, or ended (R64). -/
def LeavesChain (s t : State) (n : PointNo) : Prop :=
  (∀ l, s.ChainIs (s.point n).cls l → t.ChainIs (s.point n).cls (l.filter (· ≠ n))) ∧
  ∀ k, t.classState k =
    if (s.point n).cls = some k ∧ (s.classState k).inPass = true ∧ (s.classState k).cursor = some n then
      { s.classState k with inPass := (s.point n).next.isSome, cursor := (s.point n).next }
    else s.classState k

/-- Point `n` is in no notice set, and the other members are as they were (R149). -/
def LeavesNotices (s t : State) (n : PointNo) : Prop := ∀ v, t.noticeSet v = (s.noticeSet v).filter (· ≠ n)

/-- The free list has gained exactly these segments and is in ascending order (R102). -/
def Returned (s t : State) (gs : List SegNo) : Prop :=
  t.freeSegs.Pairwise (· < ·) ∧ ∀ g, g ∈ t.freeSegs ↔ g ∈ s.freeSegs ∨ g ∈ gs

/-- The command of port `o` waits on point `n` in a phase that its retirement ends (R48). -/
def EndedByRetirement (s : State) (n : PointNo) (o : Port) : Prop :=
  ∃ c, s.busyWith o = some c ∧ operandPoint c = n ∧
    (c.phase = .waitPoint ∨ c.phase = .waitGrant ∨ c.phase = .waitAccess ∨ c.phase = .waitWrite)

/-- An access that port `o` asked for goes on as it is, with no command of `o` waiting on it (R32, R125). -/
def orphaned (o : Port) : BusPhase → BusPhase
  | .idle => .idle
  | .granted g => .granted (orphanGrant o g)
  | .running g a => .running (orphanGrant o g) a
  | .reporting g a c => .reporting (orphanGrant o g) a c

/-- The command of port `o` has completed RETIRED and given up its access: its request is withdrawn, and an access
already granted reaches no slot (R32, R48). -/
def WaiterRetired (s t : State) (o : Port) : Prop :=
  t.port o = { s.port o with slot := { state := .done, result := .retired, area := zeroArea } } ∧
  t.entry (.slot o) = none ∧ (∀ r, r ≠ .slot o → t.entry r = s.entry r) ∧
  t.bus = { s.bus with entries := t.bus.entries, phase := orphaned o s.bus.phase }

/-- What a retirement of `n` does to the other port `o`: its command that waits on `n` ends, and any other is left
alone (R48). -/
def WaiterEnds (s t : State) (n : PointNo) (o : Port) : Prop :=
  (s.EndedByRetirement n o → s.WaiterRetired t o) ∧ (¬ s.EndedByRetirement n o → t.port o = s.port o ∧ t.bus = s.bus)

/-- The request of `r` for point `n` is placed (R122): granted at once by an IDLE engine, waiting in its entry
otherwise. -/
def Placed (s t : State) (r : Requester) (n : PointNo) (forWrite : Bool) : Prop :=
  (s.bus.phase = .idle →
    t.bus = { s.bus with lastGranted := r, phase := .granted ⟨n, r, forWrite, true⟩ }) ∧
  (s.bus.phase ≠ .idle →
    t.entry r = some ⟨n, forWrite⟩ ∧ (∀ x, x ≠ r → t.entry x = s.entry x) ∧
    t.bus = { s.bus with entries := t.bus.entries })

/-- The engine after a completion has been taken (R136, R123): the slots have placed the requests that `asks` names, the other
entries standing as they were, and the engine has then entered IDLE and granted the next of them in the rotation; region
records and pins are kept. What entering IDLE does is a statement of its own. -/
def EngineFreed (s t : State) (asks : Port → Request → Prop) : Prop :=
  ∃ u : State, u.bus = { s.bus with entries := u.bus.entries } ∧ u.entry .scan = s.entry .scan ∧
    (∀ p q, asks p q → u.entry (.slot p) = some q) ∧
    (∀ p, (∀ q, ¬ asks p q) → u.entry (.slot p) = s.entry (.slot p)) ∧ t.bus = u.busIdle.bus

/-- The requests a counted completion of point `n` leads to (R42, R46): that of a READ_NOW which waited for the access to end,
and the owed write of the WRITE that set WRITE_AGAIN. -/
def CountedAsks (s : State) (n : PointNo) (p : Port) (q : Request) : Prop :=
  (s.WaitsIn p .readNow .waitPoint n ∧ q = ⟨n, false⟩) ∨
  (s.WaitsIn p .write .waitPoint n ∧ (s.point n).writeAgain = true ∧ q = ⟨n, true⟩)

/-- The command of port `p` goes on in phase `ph` (R32), and nothing else of the port changes. -/
def MovesTo (s t : State) (p : Port) (ph : CmdPhase) : Prop :=
  ∃ c, s.busyWith p = some c ∧
    t.port p = { s.port p with slot := { s.slot p with state := .busy { c with phase := ph } } }

/-- A beat of the access `a` at its position begins (R120, R131 to R133): at OFFSET, or OFFSET + 2 where `second`, with the
chip select and lanes of the access. A self-paced beat, and a device-paced one that finds BACK_N deasserted, has its strobe
asserted, a write beat's data being driven with it; a device-paced one that finds it asserted waits in its release stage.
The counts of the beat start at 0. -/
def BeatBegins (t : State) (g : Grant) (a : Access) (write second : Bool) : Prop :=
  ∃ stage, stage = (match a.cap.pacing with
      | .selfPaced => Stage.timed
      | .device => if t.backAsserted then .release else .acknowledge) ∧
    t.bus.phase = .running g { a with stage := stage, clks := 0, ticks := 0 } ∧
    t.bus.pins = {
      ba := a.cap.base + a.offset + (if second then 2 else 0), bcs := some a.region
      ble := a.kind == .blockRead || a.width != .w8 || !a.offset.getLsbD 0
      bhe := a.kind == .blockRead || a.width != .w8 || a.offset.getLsbD 0
      brd := stage != .release && !write, bwr := stage != .release && write
      bd := if stage != .release && write then some (beatData a second) else none }

/-- The access has ended with this completion, every output but BA released, and waits with its record and data (R126, R131,
R136). -/
def AccessEnds (s t : State) (g : Grant) (a : Access) (c : Completion) : Prop :=
  t.bus.phase = .reporting g a c ∧ t.bus.pins = ⟨s.bus.pins.ba, none, false, false, false, false, none⟩

/-- The causes raised by a counted completion have been taken in (R6, R97, R149): those in CAUSE_EN are added to CAUSES
of point `n`, which is in the notice set of its LEVEL when CAUSES is not empty, and no other member has moved. -/
def Raised (s t : State) (n : PointNo) (raised : Byte) : Prop :=
  (t.point n).causes = (s.point n).causes ||| (raised &&& (s.point n).causeEn) ∧
  (∀ v, (t.noticeSet v).Pairwise (· < ·)) ∧
  ∀ m v, m ∈ t.noticeSet v ↔
    if m = n then (t.point n).causes ≠ 0 ∧ (s.point n).level = v else m ∈ s.noticeSet v

/-- What a counted completion of point `n` may change besides the point: block words, notice sets and slots, and the engine,
which grants its next request. -/
def CompletionFrame (s t : State) (n : PointNo) : Prop :=
  s.EngineFreed t (s.CountedAsks n) ∧
  t = { s with
    points := t.points, segWords := t.segWords, primary := t.primary, maint := t.maint, bus := t.bus,
    notify := { s.notify with sets := t.notify.sets } }

/-- The ruling of R62 on point `n`, which may change the record's PROBE, the request state and the engine: skipped with an
access in flight; skipped with PROBE counted down where FAULTED with PROBE not 0; accessed otherwise. -/
def Ruled (s t : State) (n : PointNo) : Prop :=
  let r := s.point n
  (∀ m, m ≠ n → t.point m = s.point m) ∧
  (r.inFlight ≠ .none → t.point n = r ∧ t.scan.req = .free ∧ t.bus = s.bus) ∧
  (r.inFlight = .none → r.state = .faulted → r.probe ≠ 0 →
    t.point n = { r with probe := r.probe - 1 } ∧ t.scan.req = .free ∧ t.bus = s.bus) ∧
  (r.inFlight = .none → (r.state ≠ .faulted ∨ r.probe = 0) →
    t.point n = r ∧ t.scan.req = .requested ∧ s.Placed t .scan n false)

/-- The event `i` is a CONTROL write through `v` that applies these values (R168): one of the four CONTROL rows, or a WARM
row of the maintenance port, whose WARM position is ignored. -/
def AppliesControl (i : Instr) (v : Via) (scanRun notifyEn doneInt : Bool) : Prop :=
  (i = .scanRunSet v notifyEn doneInt ∧ scanRun = true) ∨ (i = .scanRunClear v notifyEn doneInt ∧ scanRun = false) ∨
  i = .notifyEn v notifyEn scanRun doneInt ∨ i = .doneInt v doneInt scanRun notifyEn ∨
  (i = .warm v scanRun notifyEn doneInt ∧ v.port = .maint)

/-- The load is undone (R181): what a load sets is at its cold reset value, loading has ended with LOAD_FAIL and the start
flags dropped, the scan engine counts as the requester taken last (R4), and everything else is as in `s`. The notice sets,
which R181 does not name, are empty, and OVERRUN_COUNT, OVERRUN and the pass of each class are kept (log 23). -/
def LoadUndone (s t : State) : Prop :=
  (∀ n, t.point n = Point.free) ∧ (∀ c, t.chain c = ⟨none, none, 0⟩) ∧ t.freeSegs = List.finRange 96 ∧
  (∀ r, t.region r = ⟨false, 0, 0, false, false, .lowFirst, .selfPaced, 0, 0⟩) ∧
  (∀ c, t.classState c = { s.classState c with period := 0, remaining := 0 }) ∧ (∀ v, t.noticeSet v = []) ∧
  t.notify.mask = 0 ∧ t.notify.type = 0 ∧ t.notify.order = #v[0, 1, 2, 3, 4, 5, 6, 7] ∧ t.notify.orderErr = false ∧
  t.loader = { s.loader with
    state := .done, fail := true, partialLoad := false, rejects := 0, startScanRun := false, startNotifyEn := false
    sum := t.loader.sum } ∧
  t = { s with
    points := t.points, chains := t.chains, freeSegs := t.freeSegs, lastTaken := .scan
    bus := { s.bus with regions := t.bus.regions }, scan := { s.scan with classes := t.scan.classes }
    notify := { s.notify with
      sets := t.notify.sets, mask := t.notify.mask, type := t.notify.type, order := t.notify.order
      orderErr := t.notify.orderErr }
    loader := t.loader }

/-- An event whose only effect is on port `p`'s own registers. -/
def PortOnly (s t : State) (p : Port) : Prop :=
  t.port (otherPort p) = s.port (otherPort p) ∧ t = { s with primary := t.primary, maint := t.maint }

end State

end Sys2Proof.Machine
end

