-- ==== Sys2Proof/Certificates/Slice0/Obligations.lean ====
section
/-! DEFINITION. The statements for the provers: what the events of the 6140 do, by the rules of the spec. -/

section
open Sys2Proof Sys2Proof.Machine Sys2Proof.Machine.State

/-! ### The machine as a whole -/

/-- One step takes the front of the queue and is exec of it on the state with the queue's rest; on an empty queue the
state stays as it is (the model's choice, log 1). -/
def Obligations.StepTakesTheFrontOfTheQueue : Prop :=
  (∀ (i : Instr) (s : State), step { s with pending := i :: s.pending } = exec i s) ∧
  ∀ s : State, s.pending = [] → step s = .next s

/-- Every event, taken in every state, leads to a next state, and none touches the queue of the events behind it. The queue
itself (log 1), that a cold reset keeps it (log 21), and that an event which is not due still has a next state (log 2) are
the model's choices. -/
def Obligations.EveryEventLeadsToANextState : Prop :=
  ∀ (i : Instr) (s : State), ∃ t, exec i s = .next t ∧ t.pending = s.pending

/-- An event offered where the part would not produce it leaves the state as it is, and so does one that LOADING shuts out
(the model's choice, log 2; `NotDue` names them row by row): a start or completion that does not wait, the end or
timeout of a beat before its count, an expiry of a class timer that does not stand at 0, a pin event to the level the pin
has, a command byte inside a transfer, a loader transaction that is not the next, has another address or has not
delivered its words (log 15), and a word on a port that is not in such
a transfer. While LOADING every register write is ignored, and a word read from CLAIM or BLK_DATA is 0 with no side effect.
(Commands and visits out of turn have a statement of their own.) -/
def Obligations.EventsNotDueChangeNothing : Prop :=
  (∀ (s : State) (i : Instr), s.NotDue i → exec i s = .next s) ∧
  ∀ (s : State) (i : Instr) (v : Via) (addr : BitVec 7), registerRead i = some (v, addr) →
    (s.takesWord v true addr = false → exec i s = .next s) ∧
    (s.takesWord v true addr = true → s.loading = true →
      exec i s = .next { s with primary := { s.primary with sent := 0 }, sdo := .word 0 })

/-- The table engine takes a start or completion report first, then its other requesters in rotation after the one taken
last, passing over one with nothing waiting (R4); a command or visit not next in that order leaves the state as it is
(the model's choice, log 3), and one that is next counts as the one taken last. -/
def Obligations.TableEngineTakesRequestsInOrder : Prop :=
  (∀ s : State, s.loading = true ∨ s.reportWaits = true → s.tableTurn = none) ∧
  (∀ (s : State) (r : Requester), s.tableTurn = some r ↔
    s.loading = false ∧ s.reportWaits = false ∧ s.asksTable r = true ∧
    ∃ before after, rotationAfter s.lastTaken = before ++ r :: after ∧ ∀ x ∈ before, s.asksTable x = false) ∧
  rotationAfter .scan = [.slot .primary, .slot .maint, .scan] ∧
  rotationAfter (.slot .primary) = [.slot .maint, .scan, .slot .primary] ∧
  rotationAfter (.slot .maint) = [.scan, .slot .primary, .slot .maint] ∧
  (∀ (s : State) (name : CmdName) (p : Port) (i : Instr), commandRow name p = some i →
    (∀ c, ¬ s.NextCommand p name c) → exec i s = .next s) ∧
  (∀ (s : State) (name : CmdName) (p : Port) (i : Instr) (c : Command), commandRow name p = some i →
    s.NextCommand p name c → ∃ t, exec i s = .next t ∧ t.lastTaken = .slot p) ∧
  (∀ s : State, s.tableTurn ≠ some .scan → exec .visit s = .next s) ∧
  ∀ s : State, s.tableTurn = some .scan → ∃ t, exec .visit s = .next t ∧ t.lastTaken = .scan

/-- A cold reset, whatever state it finds, sets every block to the cold reset values of its chapter (R177), and leaves only
the levels of the input pins and the events waiting: records and chains (R2, R14), pool (R100), slots and ports (R27,
R151, R155, R156, R160, R165, R167), scan engine (R55), engine and regions (R118, R121, R131), attention lines (R140), notification unit
(R148, R150, R151, R159) and loader (R177). The target address is that of the sampled MADR (R165), and an SPI port whose
SCS_N is still low waits for it to rise (R164). That the two levels are operands and that an SPI port whose SCS_N is low
counts as in a transfer is the model's choice (log 21). -/
def Obligations.ColdResetSetsEveryBlock : Prop :=
  ∀ (madrHigh scsLow : Bool) (s : State), ∃ t, exec (.coldReset madrHigh scsLow) s = .next t ∧
    (∀ n, t.point n = Point.free) ∧ (∀ c, t.chain c = ⟨none, none, 0⟩) ∧
    t.freeSegs = List.finRange 96 ∧ t.lastTaken = .scan ∧
    (∀ p, (t.slot p).state = .idle ∧ (t.slot p).result = .ok ∧ (t.slot p).area = Vector.replicate 64 0 ∧
      (t.port p).params = Vector.replicate 16 0 ∧ (t.port p).blkAddr = 0 ∧ (t.port p).collision = false ∧
      (t.port p).doneInt = false ∧ (t.port p).claimCauses = 0 ∧ (t.port p).claimValue = 0 ∧
      (t.port p).claimLevel = none ∧ (t.port p).stagedLo = 0x3210) ∧
    t.pointer = 0 ∧ t.i2cAddr = (if madrHigh then 0x4D else 0x4C) ∧
    (scsLow = true → t.spi = .abandoned) ∧ (scsLow = false → t.spi = .ready ∧ t.sdo = .undriven) ∧
    (∀ c, t.classState c = ⟨0, 0, false, none, 0, false⟩) ∧ (∀ r, t.pendingFlag r = false) ∧
    t.scan.sweep = none ∧ t.scan.sweepCursor = 0 ∧ t.scan.req = .free ∧ t.scan.run = false ∧
    (∀ r, t.region r = ⟨false, 0, 0, false, false, .lowFirst, .selfPaced, 0, 0⟩) ∧
    (∀ r, t.entry r = none) ∧ t.bus.lastGranted = .slot .maint ∧ t.bus.phase = .idle ∧
    t.bus.pins = ⟨0, none, false, false, false, false, none⟩ ∧
    (∀ l, t.line l = ⟨.off, 0, (s.line l).live, false⟩) ∧ t.backAsserted = s.backAsserted ∧
    (∀ v, t.noticeSet v = []) ∧ t.notify.mask = 0 ∧ t.notify.type = 0 ∧ t.notify.order = #v[0, 1, 2, 3, 4, 5, 6, 7] ∧
    t.notify.orderErr = false ∧ t.notify.notifyEn = false ∧
    t.loader.state = .verify ∧ t.loader.fail = false ∧ t.loader.partialLoad = false ∧ t.loader.rejects = 0 ∧
    t.timebase = ⟨0, 0⟩ ∧ t.pending = s.pending

/-- The state right after a cold reset has all the standing facts. -/
def Obligations.ResetIsConsistent : Prop := State.reset.Consistent

/-! ### What every step keeps -/

/-- Every step keeps the notice sets in ascending order and in agreement with CAUSES and LEVEL (R148), and the level order a
permutation (R151). -/
def Obligations.StepKeepsNoticesAndOrder : Prop :=
  ∀ s t : State, s.Consistent → step s = .next t → t.NoticesAgree ∧ t.OrderAgrees

/-- Every step keeps FREE and RETIRING records quiet (R2, R6, R23), IN_FLIGHT with the engine's one access (R24, R26, R12),
and an IDLE engine without waiting requests (R123). -/
def Obligations.StepKeepsRecordsAndFlight : Prop :=
  ∀ s t : State, s.Consistent → step s = .next t → t.RecordsQuiet ∧ t.FlightAgrees ∧ t.EngineAgrees

/-- Every step keeps the health of each point in use in agreement with its counters and thresholds (R9). -/
def Obligations.StepKeepsHealth : Prop :=
  ∀ s t : State, s.Consistent → step s = .next t → t.HealthAgrees

/-- Every step keeps the segments divided between the free list and the points that hold them (R100, R104). -/
def Obligations.StepKeepsThePool : Prop :=
  ∀ s t : State, s.Consistent → step s = .next t → t.PoolAgrees

/-- Every step keeps each point in use on the chain of its CLASS, and on that alone (R14). -/
def Obligations.StepKeepsTheChains : Prop :=
  ∀ s t : State, s.Consistent → step s = .next t → t.ChainsAgree

/-- Every step keeps pass cursors on linked points (R63, R64), no work in progress while SCAN_RUN is clear (R73), and the
held blocks quiet while LOADING (R27, R55, R137, R163). -/
def Obligations.StepKeepsTheScanEngine : Prop :=
  ∀ s t : State, s.Consistent → step s = .next t → t.CursorsAgree ∧ t.ScanQuiet ∧ t.LoadingQuiet

/-! ### Formats (R173 to R175) -/

/-- Words 8 to 20 of the snapshot of a record that carries the definition of a valid block are a definition block that gives
the same definition again: for an OUTPUT point, whose word 12 shows SHADOW bits 15 to 0, while those are its initial
shadow's (R41, R173). -/
def Obligations.DefinitionBlockReadsBack : Prop :=
  ∀ (s : State) (n : PointNo) (raw : RawDef) (mustBe : Option Kind) (d : Definition), raw.check mustBe = some d →
    d.onto (s.point n) = s.point n → (d.kind = .output → loWord (s.point n).shadow = d.initShadow) →
    (RawDef.ofWords fun i => (s.snapshot n).toList.getD (8 + i) 0).check mustBe = some d

/-- The report of a region holds, in words 1 to 5, the region record it was made from, and the number in word 0 (R175). -/
def Obligations.RegionRecordReadsBack : Prop :=
  ∀ (n : RegionNo) (g : Region), Region.ofWords (regionWord n g) = g ∧ (regionWord n g 0).toNat = n.val

/-- The 64 words of a snapshot (R41, R174): in words 0 to 7 each field of the record at the place R174 gives it, for a record
whose counters are in their ranges (R1); in words 8 to 20 the definition; in words 24 to 55 the block words of a BLOCK
point, BLOCK_LEN of them; and zero elsewhere. -/
def Obligations.SnapshotHeaderPlacesEveryField : Prop :=
  ∀ (s : State) (n : PointNo),
    let r := s.point n
    let w := fun k => (s.snapshot n).toList.getD k 0
    (r.fails ≤ 15 → r.probe ≤ 7 → r.mismatches ≤ 255 → r.lastLen ≤ 32 →
      field (w 0) 0 3 = r.state.code ∧ field (w 0) 3 2 = r.kind.code ∧
      field (w 0) 5 2 = holderCode r.holder ∧ field (w 0) 7 2 = r.inFlight.code ∧
      flag (w 0) 9 = r.redefined ∧ flag (w 0) 10 = r.writeAgain ∧
      field (w 0) 11 2 = r.alarm.code ∧ field (w 0) 13 3 = 0 ∧
      hiByte (w 1) = r.causeEn ∧ loByte (w 1) = r.causes ∧
      field (w 2) 0 4 = r.fails ∧ field (w 2) 4 3 = r.probe ∧
      flag (w 2) 7 = false ∧ field (w 2) 8 8 = r.mismatches ∧
      field (w 3) 0 9 = pointOrEnd r.next ∧ flag (w 3) 9 = false ∧
      field (w 3) 10 6 = r.lastLen ∧
      longOf (w 4) (w 5) = r.value ∧
      longOf (w 6) (w 7) = (match r.kind with | .input => r.reference | .output => r.shadow | .block => 0)) ∧
    (∀ i, i < 13 → w (8 + i) = definitionWord r i) ∧ w 21 = 0 ∧ w 22 = 0 ∧ w 23 = 0 ∧
    (∀ i, i < 32 → w (24 + i) = if r.kind = .block ∧ i < r.blockLen then s.blockWord r i else 0) ∧
    ∀ i, i < 8 → w (56 + i) = 0

/-! ### The table commands (chapters 1 and 2) -/

/-- The checks of R3 in their order: BAD_FIELD for a block that is not valid, then NO_REGION unless the region is enabled and
the access fits in it, then NO_SPACE unless the pool covers the segments beyond those held; otherwise the definition is
accepted, its used fields as given and its unused ones at their FREE values. -/
def Obligations.DefinitionIsCheckedInOrder : Prop :=
  ∀ (s : State) (raw : RawDef) (mustBe : Option Kind) (held : Nat),
    (¬ raw.FieldsValid mustBe → s.checkDefinition raw mustBe held = .error .badField) ∧
    (raw.FieldsValid mustBe → ∃ d, raw.Gives d ∧
      let g := s.region d.region
      let fits := g.enable = true ∧
        d.offset.toNat + (match d.kind with | .input | .output => d.width.bytes | .block => 2) ≤
          256 * 2 ^ g.sizeCode.toNat
      (¬ fits → s.checkDefinition raw mustBe held = .error .noRegion) ∧
      (fits → s.freeSegs.length < (d.blockLen + 7) / 8 - held →
        s.checkDefinition raw mustBe held = .error .noSpace) ∧
      (fits → (d.blockLen + 7) / 8 - held ≤ s.freeSegs.length → s.checkDefinition raw mustBe held = .ok d))

/-- DEFINE of a FREE point with an accepted definition (R8, R34): the record, UNREAD, with SHADOW from the initial shadow
and the lowest free segments, its block words zero; the append at the tail of its chain (R15); OK with a snapshot; and
nothing else. -/
def Obligations.DefineTakesAFreePointToUnread : Prop :=
  ∀ (p : Port) (c : Command) (d : Definition) (s : State), s.NextCommand p .define c → s.Consistent →
    let n := operandPoint c
    (s.point n).state = .free → s.checkDefinition (RawDef.ofWords (paramWord c)) none 0 = .ok d →
    let k := (d.blockLen + 7) / 8
    ∃ t, exec (.define p) s = .next t ∧ s.Completed t p .ok (t.snapshot n) ∧
      t.point n = { d.onto Point.free with
        state := .unread, segments := s.freeSegs.take k, shadow := longOf 0 d.initShadow } ∧
      (∀ m, m ≠ n → t.point m =
        if (s.chain d.cls).tail = some m then { s.point m with next := some n } else s.point m) ∧
      t.chain d.cls = ⟨if (s.chain d.cls).tail = none then some n else (s.chain d.cls).head, some n,
        (s.chain d.cls).length + 1⟩ ∧
      (∀ x, x ≠ d.cls → t.chain x = s.chain x) ∧
      t.freeSegs = s.freeSegs.drop k ∧ (∀ i, i < d.blockLen → t.blockWord (t.point n) i = 0) ∧
      (∀ g : SegNo, g ∉ s.freeSegs.take k → t.segWords[g.val] = s.segWords[g.val]) ∧
      t = { s with
        points := t.points, chains := t.chains, freeSegs := t.freeSegs, segWords := t.segWords,
        lastTaken := t.lastTaken, primary := t.primary, maint := t.maint }

/-- MODIFY of a point in use, not held by the other port, with an accepted definition (R10, R18, R35, R105, R106): the
record under its new definition, UNREAD, with its kept fields; SEGMENTS grown at the end or shrunk from it, the block
words zero; CAUSES emptied, with the leave from the notice set of the old level; the place on the chain kept where CLASS
is the same, and otherwise a move to the tail of the new chain; OK with a snapshot; and nothing else. -/
def Obligations.ModifyRedefinesThePoint : Prop :=
  ∀ (p : Port) (c : Command) (d : Definition) (s : State), s.NextCommand p .modify c → s.Consistent →
    let n := operandPoint c
    let r := s.point n
    r.state.isDefined = true → r.holder ≠ some (otherPort p) →
    s.checkDefinition (RawDef.ofWords (paramWord c)) (some r.kind) r.segments.length = .ok d →
    let k := (d.blockLen + 7) / 8
    ∃ t, exec (.modify p) s = .next t ∧ s.Completed t p .ok (t.snapshot n) ∧
      t.point n = { d.onto r with
        state := .unread, fails := 0, probe := 0, alarm := .normal, causes := 0
        redefined := r.redefined || r.inFlight != .none
        next := if d.cls = r.cls then r.next else none
        lastLen := if r.kind = .block then 0 else r.lastLen
        value := if r.kind = .block then 0 else r.value
        segments := if r.segments.length < k then r.segments ++ s.freeSegs.take (k - r.segments.length)
          else r.segments.take k } ∧
      s.OthersKept t n ∧ s.LeavesNotices t n ∧
      (d.cls = r.cls →
        (∀ m, m ≠ n → t.point m = s.point m) ∧ t.chains = s.chains ∧ t.scan = s.scan) ∧
      (d.cls ≠ r.cls →
        s.LeavesChain t n ∧ (∀ l, s.ChainIs d.cls l → t.ChainIs d.cls (l ++ [n])) ∧
        ∀ x l, x ≠ r.cls → x ≠ d.cls → s.ChainIs x l → t.ChainIs x l) ∧
      (r.segments.length < k → t.freeSegs = s.freeSegs.drop (k - r.segments.length)) ∧
      (k ≤ r.segments.length → s.Returned t (r.segments.drop k)) ∧
      (∀ i, i < d.blockLen → t.blockWord (t.point n) i = 0) ∧
      (∀ g : SegNo, g ∉ (t.point n).segments → t.segWords[g.val] = s.segWords[g.val]) ∧
      t = { s with
        points := t.points, chains := t.chains, freeSegs := t.freeSegs, segWords := t.segWords,
        scan := { s.scan with classes := t.scan.classes }, notify := { s.notify with sets := t.notify.sets },
        lastTaken := t.lastTaken, primary := t.primary, maint := t.maint }

/-- RETIRE of a point in use with no access in flight, not held by the other port (R11, R37): the point becomes FREE, leaves
its chain and its notice set, and returns its segments; the other port's command that waits on it completes RETIRED (R48);
OK with a zero result area; and nothing else. -/
def Obligations.RetireFreesAPointAtOnce : Prop :=
  ∀ (p : Port) (c : Command) (s : State), s.NextCommand p .retire c → s.Consistent →
    let n := operandPoint c
    let r := s.point n
    r.state.isDefined = true → r.holder ≠ some (otherPort p) → r.inFlight = .none →
    ∃ t, exec (.retire p) s = .next t ∧ t.lastTaken = .slot p ∧
      t.port p = { s.port p with slot := { state := .done, result := .ok, area := zeroArea } } ∧
      t.point n = Point.free ∧ s.OthersKept t n ∧ s.LeavesChain t n ∧
      (∀ x l, x ≠ r.cls → s.ChainIs x l → t.ChainIs x l) ∧
      s.LeavesNotices t n ∧ s.Returned t r.segments ∧ s.WaiterEnds t n (otherPort p) ∧
      t = { s with
        points := t.points, chains := t.chains, freeSegs := t.freeSegs,
        scan := { s.scan with classes := t.scan.classes }, notify := { s.notify with sets := t.notify.sets },
        bus := t.bus, lastTaken := t.lastTaken, primary := t.primary, maint := t.maint }

/-- RETIRE of a point in use with an access in flight, not held by the other port (R12, R37): the point becomes RETIRING with
HOLDER NONE, WRITE_AGAIN clear and CAUSES empty, and keeps the rest and its segments; it leaves its chain and its notice
set; the other port's command that waits on it completes RETIRED (R48); the RETIRE waits in WAIT_FREE; and nothing else. -/
def Obligations.RetireOfAPointInFlightWaits : Prop :=
  ∀ (p : Port) (c : Command) (s : State), s.NextCommand p .retire c → s.Consistent →
    let n := operandPoint c
    let r := s.point n
    r.state.isDefined = true → r.holder ≠ some (otherPort p) → r.inFlight ≠ .none →
    ∃ t, exec (.retire p) s = .next t ∧ t.lastTaken = .slot p ∧
      t.port p = { s.port p with slot := { s.slot p with state := .busy { c with phase := .waitFree n 0 } } } ∧
      t.point n = { r with state := .retiring, holder := none, writeAgain := false, causes := 0, next := none } ∧
      s.OthersKept t n ∧ s.LeavesChain t n ∧ (∀ x l, x ≠ r.cls → s.ChainIs x l → t.ChainIs x l) ∧
      s.LeavesNotices t n ∧ s.WaiterEnds t n (otherPort p) ∧
      t = { s with
        points := t.points, chains := t.chains,
        scan := { s.scan with classes := t.scan.classes }, notify := { s.notify with sets := t.notify.sets },
        bus := t.bus, lastTaken := t.lastTaken, primary := t.primary, maint := t.maint }

/-- HOLD and RELEASE (R20): on a point in use that the other port does not hold they complete OK, HOLDER the issuing port
after a HOLD and NONE after a RELEASE; HELD where the other port holds it, and NOT_DEFINED where it is FREE or RETIRING,
with nothing changed. -/
def Obligations.HoldAndReleaseActOnHolder : Prop :=
  ∀ (p : Port) (c : Command) (s : State),
    let n := operandPoint c
    (s.NextCommand p .hold c →
      ((s.point n).state.isDefined = true → (s.point n).holder ≠ some (otherPort p) →
        ∃ t, exec (.hold p) s = .next t ∧ s.Completed t p .ok (t.snapshot n) ∧
          t.point n = { s.point n with holder := some p } ∧ (∀ m, m ≠ n → t.point m = s.point m) ∧
          t = { s with points := t.points, lastTaken := t.lastTaken, primary := t.primary, maint := t.maint }) ∧
      ((s.point n).state.isDefined = true → (s.point n).holder = some (otherPort p) →
        s.RefusedWith (.hold p) p .held) ∧
      ((s.point n).state.isDefined = false → s.RefusedWith (.hold p) p .notDefined)) ∧
    (s.NextCommand p .release c →
      ((s.point n).state.isDefined = true → (s.point n).holder ≠ some (otherPort p) →
        ∃ t, exec (.release p) s = .next t ∧ s.Completed t p .ok (t.snapshot n) ∧
          t.point n = { s.point n with holder := none } ∧ (∀ m, m ≠ n → t.point m = s.point m) ∧
          t = { s with points := t.points, lastTaken := t.lastTaken, primary := t.primary, maint := t.maint }) ∧
      ((s.point n).state.isDefined = true → (s.point n).holder = some (otherPort p) →
        s.RefusedWith (.release p) p .held) ∧
      ((s.point n).state.isDefined = false → s.RefusedWith (.release p) p .notDefined))

/-- The checks of R33 in their order for DEFINE, MODIFY, RETIRE, READ_NOW and WRITE: the first that fails gives its code,
with a zero result area and nothing else changed. (HOLD and RELEASE have a statement of their own.) -/
def Obligations.RefusedCommandsChangeNothing : Prop :=
  ∀ (p : Port) (c : Command) (code : ResultCode) (s : State),
    let n := operandPoint c
    let r := s.point n
    let used := r.state.isDefined = true
    let held := r.holder = some (otherPort p)
    let g := s.region r.region
    (s.NextCommand p .define c →
      (r.state ≠ .free → s.RefusedWith (.define p) p .notFree) ∧
      (r.state = .free → s.checkDefinition (RawDef.ofWords (paramWord c)) none 0 = .error code →
        s.RefusedWith (.define p) p code)) ∧
    (s.NextCommand p .modify c →
      (¬ used → s.RefusedWith (.modify p) p .notDefined) ∧
      (used → held → s.RefusedWith (.modify p) p .held) ∧
      (used → ¬ held →
        s.checkDefinition (RawDef.ofWords (paramWord c)) (some r.kind) r.segments.length = .error code →
        s.RefusedWith (.modify p) p code)) ∧
    (s.NextCommand p .retire c →
      (¬ used → s.RefusedWith (.retire p) p .notDefined) ∧ (used → held → s.RefusedWith (.retire p) p .held)) ∧
    (s.NextCommand p .readNow c → ¬ used → s.RefusedWith (.readNow p) p .notDefined) ∧
    (s.NextCommand p .write c →
      (¬ used → s.RefusedWith (.write p) p .notDefined) ∧
      (used → r.kind ≠ .output → s.RefusedWith (.write p) p .badPoint) ∧
      (used → r.kind = .output → held → s.RefusedWith (.write p) p .held) ∧
      (used → r.kind = .output → ¬ held → g.readOnly = true ∨ (p = .maint ∧ g.primaryOnly = true) →
        s.RefusedWith (.write p) p .isProtected))

/-- READ completes OK with a snapshot of the point in any state, and touches nothing (R40). -/
def Obligations.ReadTouchesNothing : Prop :=
  ∀ (p : Port) (c : Command) (s : State), s.NextCommand p .read c →
    ∃ t, exec (.read p) s = .next t ∧ s.Completed t p .ok (s.snapshot (operandPoint c)) ∧ s.SlotsOnly t

/-- READ_NOW of a point in use (R42): with no access in flight the slot's request is placed and it enters WAIT_GRANT; with
one it enters WAIT_POINT; and nothing else. -/
def Obligations.ReadNowAsksForAnAccess : Prop :=
  ∀ (p : Port) (c : Command) (s : State), s.NextCommand p .readNow c → s.EngineAgrees →
    let n := operandPoint c
    (s.point n).state.isDefined = true →
    ((s.point n).inFlight = .none →
      ∃ t, exec (.readNow p) s = .next t ∧ s.GoesOn t p c .waitGrant ∧ s.Placed t (.slot p) n false ∧
        t = { s with bus := t.bus, lastTaken := t.lastTaken, primary := t.primary, maint := t.maint }) ∧
    ((s.point n).inFlight ≠ .none →
      ∃ t, exec (.readNow p) s = .next t ∧ s.GoesOn t p c .waitPoint ∧ s.SlotsOnly t)

/-- A WRITE that passes its checks (R44 to R46): SHADOW takes the value's bits where the mask holds 1 and keeps the others;
with no access in flight the slot's request for a write is placed and it enters WAIT_GRANT; with one it sets WRITE_AGAIN
and waits, in WAIT_POINT where the flag was clear and in WAIT_WRITE where it was set; and nothing else. -/
def Obligations.WriteChangesShadowAndWaits : Prop :=
  ∀ (p : Port) (c : Command) (s : State), s.NextCommand p .write c → s.EngineAgrees →
    let n := operandPoint c
    let r := s.point n
    let g := s.region r.region
    r.state.isDefined = true → r.kind = .output → r.holder ≠ some (otherPort p) → g.readOnly = false →
    (p = .maint → g.primaryOnly = false) →
    ∃ t, exec (.write p) s = .next t ∧
      (∀ i, (t.point n).shadow.getLsbD i =
        if (longOf (paramWord c 2) (paramWord c 3)).getLsbD i then
          (longOf (paramWord c 0) (paramWord c 1)).getLsbD i
        else r.shadow.getLsbD i) ∧
      t.point n = { r with
        shadow := (t.point n).shadow, writeAgain := if r.inFlight = .none then r.writeAgain else true } ∧
      (∀ m, m ≠ n → t.point m = s.point m) ∧
      (r.inFlight = .none → s.GoesOn t p c .waitGrant ∧ s.Placed t (.slot p) n true) ∧
      (r.inFlight ≠ .none →
        s.GoesOn t p c (if r.writeAgain then .waitWrite else .waitPoint) ∧ t.bus = s.bus) ∧
      t = { s with
        points := t.points, bus := t.bus, lastTaken := t.lastTaken, primary := t.primary, maint := t.maint }

/-- SET_REGION and GET_REGION (R51, R52): the checks in the order operand, protection, fields; an accepted record is stored
whole and reported, and a report gives the stored record. -/
def Obligations.RegionCommands : Prop :=
  ∀ (p : Port) (c : Command) (s : State),
    let g := Region.ofWords (paramWord c)
    (s.NextCommand p .setRegion c →
      (8 ≤ c.operand.toNat → s.RefusedWith (.setRegion p) p .badField) ∧
      ∀ n : RegionNo, n.val = c.operand.toNat →
        (p = .maint → (s.region n).primaryOnly = true → s.RefusedWith (.setRegion p) p .isProtected) ∧
        (¬ (p = .maint ∧ (s.region n).primaryOnly = true) → ¬ g.Valid →
          s.RefusedWith (.setRegion p) p .badField) ∧
        (¬ (p = .maint ∧ (s.region n).primaryOnly = true) → g.Valid →
          ∃ t, exec (.setRegion p) s = .next t ∧ s.Completed t p .ok (resultArea (regionWord n g)) ∧
            t.region n = g ∧ (∀ m, m ≠ n → t.region m = s.region m) ∧
            t = { s with
              bus := { s.bus with regions := t.bus.regions },
              lastTaken := t.lastTaken, primary := t.primary, maint := t.maint })) ∧
    (s.NextCommand p .getRegion c →
      (8 ≤ c.operand.toNat → s.RefusedWith (.getRegion p) p .badField) ∧
      ∀ n : RegionNo, n.val = c.operand.toNat →
        ∃ t, exec (.getRegion p) s = .next t ∧ s.Completed t p .ok (resultArea (regionWord n (s.region n))) ∧
          s.SlotsOnly t)

/-- SET_CLASS and GET_CLASS (R53, R54): a class takes its new PERIOD with its timer restarted from it and OVERRUN_COUNT 0,
its pass and OVERRUN flag kept; the class report in the order of R54, the class items zero for the UNSCHEDULED chain;
BAD_FIELD for an operand above 3, or above 4. -/
def Obligations.ClassCommands : Prop :=
  ∀ (p : Port) (c : Command) (s : State),
    (s.NextCommand p .setClass c →
      (4 ≤ c.operand.toNat → s.RefusedWith (.setClass p) p .badField) ∧
      ∀ k : ClassNo, k.val = c.operand.toNat →
        ∃ t, exec (.setClass p) s = .next t ∧ s.Completed t p .ok (t.classReport (some k)) ∧
          t.classState k = { s.classState k with
            period := paramWord c 0, remaining := paramWord c 0, overrunCount := 0 } ∧
          (∀ m, m ≠ k → t.classState m = s.classState m) ∧
          t = { s with
            scan := { s.scan with classes := t.scan.classes },
            lastTaken := t.lastTaken, primary := t.primary, maint := t.maint }) ∧
    (s.NextCommand p .getClass c →
      (5 ≤ c.operand.toNat → s.RefusedWith (.getClass p) p .badField) ∧
      ∀ k : ClassSel, classCode k = c.operand.toNat →
        ∃ t, exec (.getClass p) s = .next t ∧ s.Completed t p .ok (s.classReport k) ∧ s.SlotsOnly t) ∧
    (∀ k : ClassNo,
      let x := s.classState k
      (s.classReport (some k)).toList.take 7 =
        [x.period, place 0 (pointOrEnd (s.chain (some k)).head), place 0 (pointOrEnd (s.chain (some k)).tail),
         place 0 (s.chain (some k)).length, bitAt 0 x.inPass, place 0 x.overrunCount, bitAt 0 x.overrun]) ∧
    (s.classReport none).toList.take 7 =
      [0, place 0 (pointOrEnd (s.chain none).head), place 0 (pointOrEnd (s.chain none).tail),
       place 0 (s.chain none).length, 0, 0, 0] ∧
    ∀ k, (s.classReport k).toList.drop 7 = List.replicate 57 0

/-- CLEAR_ALL (R22, R38): HELD with nothing changed where the other port holds a point; otherwise every point in use becomes
FREE, or RETIRING with an access in flight, every chain and notice set is empty and every pass has ended, and the
segments that no point holds are on the free list. It completes OK with the number of points retired, or waits in
WAIT_FREE for the one that is RETIRING; the other port's command that waits on a retired point completes RETIRED. -/
def Obligations.ClearAllEmptiesTheTable : Prop :=
  ∀ (p : Port) (c : Command) (s : State), s.NextCommand p .clearAll c → s.Consistent →
    let used := fun n => (s.point n).state.isDefined
    let count := (allPoints.filter used).length
    ((∃ n, (s.point n).holder = some (otherPort p)) → s.RefusedWith (.clearAll p) p .held) ∧
    ((∀ n, (s.point n).holder ≠ some (otherPort p)) →
      ∃ t, exec (.clearAll p) s = .next t ∧ t.lastTaken = .slot p ∧
        (∀ n, used n = false → t.point n = s.point n) ∧
        (∀ n, used n = true → (s.point n).inFlight = .none → t.point n = Point.free) ∧
        (∀ n, used n = true → (s.point n).inFlight ≠ .none → t.point n =
          { s.point n with state := .retiring, holder := none, writeAgain := false, causes := 0, next := none }) ∧
        (∀ x, t.chain x = Chain.empty) ∧ (∀ v, t.noticeSet v = []) ∧
        (∀ k, t.classState k = { s.classState k with inPass := false, cursor := none }) ∧
        t.freeSegs.Pairwise (· < ·) ∧ (∀ g, g ∈ t.freeSegs ↔ ∀ n, g ∉ (t.point n).segments) ∧
        ((∀ n, used n = true → (s.point n).inFlight = .none) →
          t.port p = { s.port p with slot := {
            state := .done, result := .ok, area := resultArea fun i => if i = 0 then place 0 count else 0 } }) ∧
        (∀ n, used n = true → (s.point n).inFlight ≠ .none →
          t.port p = { s.port p with slot := { s.slot p with
            state := .busy { c with phase := .waitFree n count } } }) ∧
        ((∃ n, used n = true ∧ s.EndedByRetirement n (otherPort p)) → s.WaiterRetired t (otherPort p)) ∧
        ((∀ n, used n = true → ¬ s.EndedByRetirement n (otherPort p)) →
          t.port (otherPort p) = s.port (otherPort p) ∧ t.bus = s.bus) ∧
        t = { s with
          points := t.points, chains := t.chains, freeSegs := t.freeSegs,
          scan := { s.scan with classes := t.scan.classes }, notify := { s.notify with sets := t.notify.sets },
          bus := t.bus, lastTaken := t.lastTaken, primary := t.primary, maint := t.maint })

/-- A CMD write with a code other than DISMISS is accepted by an IDLE or DONE slot, its parameters captured, in QUEUED, the
result kept (R28); an accepted code that names no command completes BAD_COMMAND with nothing else changed (R28). A CMD
write, DISMISS or any other, to a BUSY slot is refused: the port's COLLISION is set, the command goes on, and nothing else
changes (R29). -/
def Obligations.CmdWriteIsAcceptedOrRefused : Prop :=
  (∀ (v : Via) (w : Word) (s : State), s.WritesTo v Reg.cmd → s.busyWith v.port = none → hiByte w ≠ 0x0F →
    ∃ t, exec (.cmdWrite v w) s = .next t ∧
      t.port v.port = { s.port v.port with slot := { s.slot v.port with
        state := .busy ⟨hiByte w, loByte w, (s.port v.port).params, .queued⟩ } } ∧ s.PortOnly t v.port) ∧
  (∀ (p : Port) (c : Command) (s : State), s.NextCommand p .unknown c → s.RefusedWith (.badCommand p) p .badCommand) ∧
  ∀ (v : Via) (w : Word) (operand : Byte) (c : Command) (s : State), s.WritesTo v Reg.cmd →
    s.busyWith v.port = some c →
    (∃ t, exec (.cmdWrite v w) s = .next t ∧
      t.port v.port = { s.port v.port with collision := true } ∧ s.PortOnly t v.port) ∧
    ∃ t, exec (.dismiss v operand) s = .next t ∧
      t.port v.port = { s.port v.port with collision := true } ∧ s.PortOnly t v.port

/-- DISMISS returns a DONE slot to IDLE with its result kept, leaves an IDLE slot as it is, captures nothing, is refused in
BUSY as R29 says, and is not passed to the table engine (R30); a CMD write of its code does the same. -/
def Obligations.DismissReturnsASlotToIdle : Prop :=
  ∀ (v : Via) (operand : Byte) (s : State), s.WritesTo v Reg.cmd →
    ∃ t, exec (.dismiss v operand) s = .next t ∧
      exec (.cmdWrite v (wordOf 0x0F operand)) s = .next t ∧
      t.port v.port = (match (s.slot v.port).state with
        | .idle => s.port v.port
        | .done => { s.port v.port with slot := { s.slot v.port with state := .idle } }
        | .busy _ => { s.port v.port with collision := true }) ∧ s.PortOnly t v.port

/-! ### Chains and segments (R15, R16, R101, R102) -/

/-- Appending a point of no chain puts it at the tail of the chain, and unlinking a member removes it and keeps the others
in order, with the other chains as they were and the scan engine's cursor moved on (R15, R16, R64). -/
def Obligations.ChainsAppendAndUnlink : Prop :=
  (∀ (s : State) (c : ClassSel) (n : PointNo) (l : List PointNo), s.ChainsAgree → (s.point n).state.isDefined = false →
    s.ChainIs c l →
    (s.appendTo c n).ChainIs c (l ++ [n]) ∧
    (∀ x m, x ≠ c → s.ChainIs x m → (s.appendTo c n).ChainIs x m) ∧
    s.OthersKept (s.appendTo c n) n ∧ (s.appendTo c n).point n = { s.point n with next := none } ∧
    (s.appendTo c n).scan = s.scan) ∧
  ∀ (s : State) (n : PointNo), s.ChainsAgree → (s.point n).state.isDefined = true →
    s.LeavesChain (s.unlinkFrom (s.point n).cls n) n ∧
    (∀ x l, x ≠ (s.point n).cls → s.ChainIs x l → (s.unlinkFrom (s.point n).cls n).ChainIs x l) ∧
    s.OthersKept (s.unlinkFrom (s.point n).cls n) n ∧
    (s.unlinkFrom (s.point n).cls n).point n = { s.point n with next := none }

/-- Taking segments removes the lowest-numbered entries of the free list, their words reading zero and no other word
changed (R101); returning segments inserts each at its place, so that an ascending free list stays ascending (R102). -/
def Obligations.SegmentsAreTakenAndReturned : Prop :=
  (∀ (s : State) (k : Nat), (s.takeSegments k).freeSegs = s.freeSegs.drop k ∧
    (∀ g : SegNo, (s.takeSegments k).segWords[g.val] =
      if g ∈ s.freeSegs.take k then Vector.replicate 8 0 else s.segWords[g.val]) ∧
    (s.freeSegs.Pairwise (· < ·) → ∀ g ∈ s.freeSegs.take k, ∀ h ∈ s.freeSegs.drop k, g < h) ∧
    s.takeSegments k = { s with freeSegs := s.freeSegs.drop k, segWords := (s.takeSegments k).segWords }) ∧
  ∀ (s : State) (gs : List SegNo), s.freeSegs.Pairwise (· < ·) →
    s.Returned (s.returnSegments gs) gs ∧
    s.returnSegments gs = { s with freeSegs := (s.returnSegments gs).freeSegs }

/-! ### The backplane engine (chapters 4 to 6) -/

/-- Entering IDLE, the engine grants the first filled entry in the order SCAN, PRIMARY, MAINT after the last requester
granted: the entry empties, that requester becomes the last granted, and the start waits in GRANTED; with no entry filled
it stays IDLE (R123). -/
def Obligations.EngineGrantsInRotation : Prop :=
  (∀ (s : State) (r : Requester) (q : Request) (before after : List Requester),
    rotationAfter s.bus.lastGranted = before ++ r :: after → (∀ x ∈ before, s.entry x = none) → s.entry r = some q →
    s.busIdle.bus.phase = .granted ⟨q.point, r, q.forWrite, true⟩ ∧ s.busIdle.bus.lastGranted = r ∧
    s.busIdle.entry r = none ∧ (∀ x, x ≠ r → s.busIdle.entry x = s.entry x) ∧
    s.busIdle = { s with bus := { s.bus with
      phase := s.busIdle.bus.phase, lastGranted := r, entries := s.busIdle.bus.entries } }) ∧
  ∀ s : State, (∀ r, s.entry r = none) → s.busIdle = { s with bus := { s.bus with phase := .idle } }

/-- The start of a granted access (R24, R125 to R131): refused for a FREE point, with no beat and no completion, the engine
granting its next request. For a point in use IN_FLIGHT is set by KIND, the requester learns of the start, a slot only while
its command still waits on the access (the mark `serving`, log 13), and the access captures the record and the region as
they stand: NO_REGION where the region is disabled or too small, PROTECTED for a write it forbids, neither with a beat; or
else the first beat, with its address, chip select and lanes, and its strobe and a write's data where they are driven. -/
def Obligations.AccessStartFixesTheAccess : Prop :=
  ∀ (g : Grant) (s : State), s.bus.phase = .granted g → s.loading = false →
    let n := g.point
    let r := s.point n
    let x := s.region r.region
    let a := s.accessOf r
    let write := r.kind = .output
    let len := match r.kind with | .input | .output => r.width.bytes | .block => 2
    let noRegion := x.enable = false ∨ 256 * 2 ^ x.sizeCode.toNat < r.offset.toNat + len
    let forbidden := write ∧ (x.readOnly = true ∨
      x.primaryOnly = true ∧ g.requester = .slot .maint ∧ g.forWrite = true)
    let ended := fun (t : State) (o : Outcome) =>
      s.AccessEnds t g a ⟨a.kind, o, none, if write then some r.shadow else none, none, none⟩
    (r.state = .free →
      exec .accessStart s = .next ({ s with
        scan := if g.requester = Requester.scan then { s.scan with req := ScanReq.free } else s.scan }).busIdle) ∧
    (r.state.isDefined = true →
      (a.kind = match r.kind with
        | .input => AccessKind.read
        | .output => if r.verify then .writeVerify else .write
        | .block => .blockRead) ∧
      a.region = r.region ∧ a.cap = x ∧ a.width = r.width ∧ a.offset = r.offset ∧ a.blockLen = r.blockLen ∧
      a.prefixed = r.prefixed ∧ a.driven = r.shadow ∧ a.beat = 0 ∧ a.got = 0 ∧ a.staged = [] ∧ a.truncated = false ∧
      ∃ t, exec .accessStart s = .next t ∧
        t.point n = { r with inFlight := if r.kind = .output then .write else .read } ∧
        (∀ m, m ≠ n → t.point m = s.point m) ∧
        (g.requester = .scan → t.scan = { s.scan with req := .free } ∧ t.primary = s.primary ∧ t.maint = s.maint) ∧
        (∀ p, g.requester = .slot p → t.scan = s.scan ∧ t.port (otherPort p) = s.port (otherPort p) ∧
          t.port p = (match g.serving, s.busyWith p with
            | true, some c => { s.port p with slot := { s.slot p with state := .busy { c with phase := .waitAccess } } }
            | _, _ => s.port p)) ∧
        (noRegion → ended t .noRegion) ∧ (¬ noRegion → forbidden → ended t .isProtected) ∧
        (¬ noRegion → ¬ forbidden → (r.kind = .block → 0 < r.blockLen) →
          t.BeatBegins g a (r.kind == .output) false) ∧
        t = { s with points := t.points, scan := t.scan, primary := t.primary, maint := t.maint,
                     bus := { s.bus with phase := t.bus.phase, pins := t.bus.pins } })

/-- The end of a read beat of an INPUT point (R79, R80, R130): of WIDTH 8 the lane of the point, of WIDTH 16 the word, is the
raw value and the access ends OK; of WIDTH 32 the first beat's half is kept and the second beat follows at OFFSET + 2, and
the two halves by ORDER are the raw value. Such a beat is the acknowledge of a device-paced beat or the end of a
self-paced one (R132, R133). -/
def Obligations.ReadBeatsGatherTheRawValue : Prop :=
  ∀ (i : Instr) (g : Grant) (a : Access) (bd : Word) (s : State), s.BeatEnds i g a bd → a.kind = .read →
    let ended := fun (t : State) (raw : Long) =>
      s.AccessEnds t g { a with beat := a.beat + 1, got := raw } ⟨.read, .ok, some raw, none, none, none⟩
    ∃ t, exec i s = .next t ∧
      (a.width = .w8 → a.beat = 0 →
        ended t (if a.offset.getLsbD 0 then (hiByte bd).setWidth 32 else (loByte bd).setWidth 32)) ∧
      (a.width = .w16 → a.beat = 0 → ended t (bd.setWidth 32)) ∧
      (a.width = .w32 → a.beat = 0 →
        t.BeatBegins g { a with
          beat := 1
          got := match a.cap.order with
            | .lowFirst => longOf (hiWord a.got) bd
            | .highFirst => longOf bd (loWord a.got) } false true) ∧
      (a.width = .w32 → a.beat = 1 →
        ended t (match a.cap.order with
          | .lowFirst => longOf bd (loWord a.got)
          | .highFirst => longOf (hiWord a.got) bd)) ∧
      t = { s with
        backAsserted := if i = .beatAcknowledge bd then true else s.backAsserted
        bus := { s.bus with phase := t.bus.phase, pins := t.bus.pins } }

/-- The end of a write or read-back beat of an OUTPUT point (R79, R80, R89, R130, R131): the write beats come first, then for a
WRITE_VERIFY the read-back beats at the same addresses, two of each for WIDTH 32, at OFFSET and OFFSET + 2, each write beat
with its word on BD as its strobe is asserted; after the last the access ends OK with its driven value, and with the
read-back a WRITE_VERIFY gathered. The word a write beat drives has the point's lane, or the half of the driven value that
ORDER gives, with zero on a lane not enabled. -/
def Obligations.WriteBeatsDriveAndReadBack : Prop :=
  (∀ (i : Instr) (g : Grant) (a : Access) (bd : Word) (s : State), s.BeatEnds i g a bd →
    let n := if a.width = .w32 then 2 else 1
    let k := a.beat + 1
    let second := decide (n = 2 ∧ (k = 1 ∨ k = 3))
    let back : Long := match a.width with
      | .w8 => if a.offset.getLsbD 0 then (hiByte bd).setWidth 32 else (loByte bd).setWidth 32
      | .w16 => bd.setWidth 32
      | .w32 => match a.cap.order, decide (k = 4) with
        | .lowFirst, true | .highFirst, false => longOf bd (loWord a.got)
        | .lowFirst, false | .highFirst, true => longOf (hiWord a.got) bd
    ∃ t, exec i s = .next t ∧
      (a.kind = .write → k ≤ n →
        (k = n → s.AccessEnds t g { a with beat := k } ⟨.write, .ok, none, some a.driven, none, none⟩) ∧
        (k < n → t.BeatBegins g { a with beat := k } true second)) ∧
      (a.kind = .writeVerify → k ≤ n → t.BeatBegins g { a with beat := k } (decide (k < n)) second) ∧
      (a.kind = .writeVerify → n < k → k ≤ 2 * n →
        (k < 2 * n → t.BeatBegins g { a with beat := k, got := back } false second) ∧
        (k = 2 * n → s.AccessEnds t g { a with beat := k, got := back }
          ⟨.writeVerify, .ok, none, some a.driven, some back, none⟩)) ∧
      t = { s with
        backAsserted := if i = .beatAcknowledge bd then true else s.backAsserted
        bus := { s.bus with phase := t.bus.phase, pins := t.bus.pins } }) ∧
  ∀ (a : Access) (second : Bool),
    (a.width = .w8 → a.offset.getLsbD 0 = false →
      loByte (beatData a second) = a.driven.extractLsb' 0 8 ∧ hiByte (beatData a second) = 0) ∧
    (a.width = .w8 → a.offset.getLsbD 0 = true →
      hiByte (beatData a second) = a.driven.extractLsb' 0 8 ∧ loByte (beatData a second) = 0) ∧
    (a.width = .w16 → beatData a second = a.driven.extractLsb' 0 16) ∧
    (a.width = .w32 → beatData a second =
      if second = (a.cap.order == .lowFirst) then a.driven.extractLsb' 16 16 else a.driven.extractLsb' 0 16)

/-- The end of a beat of a BLOCK_READ (R111 to R113): a fixed-length read keeps each word and ends after BLOCK_LEN beats; a
prefixed one first takes the announced count from the low byte of the count word, ends at once for 0, and then runs that
many beats, keeping words up to BLOCK_LEN, dropping the rest, and indicating truncation where the count exceeds
BLOCK_LEN. Every beat is at OFFSET. -/
def Obligations.BlockBeatsFillTheStagingBuffer : Prop :=
  ∀ (i : Instr) (g : Grant) (a : Access) (bd : Word) (s : State), s.BeatEnds i g a bd → a.kind = .blockRead →
    let ended := fun (t : State) (b : Access) =>
      s.AccessEnds t g b ⟨.blockRead, .ok, none, none, none, some ⟨b.staged, b.truncated⟩⟩
    let count := (loByte bd).toNat
    let counted := { a with beat := 1, announced := count, truncated := decide (a.blockLen < count) }
    let kept := { a with
      beat := a.beat + 1, staged := if a.staged.length < a.blockLen then a.staged ++ [bd] else a.staged }
    ∃ t, exec i s = .next t ∧
      (a.prefixed = false → a.beat < a.blockLen →
        (a.beat + 1 = a.blockLen → ended t kept) ∧ (a.beat + 1 < a.blockLen → t.BeatBegins g kept false false)) ∧
      (a.prefixed = true → a.beat = 0 →
        (count = 0 → ended t counted) ∧ (0 < count → t.BeatBegins g counted false false)) ∧
      (a.prefixed = true → 1 ≤ a.beat → a.beat ≤ a.announced →
        (a.beat = a.announced → ended t kept) ∧ (a.beat < a.announced → t.BeatBegins g kept false false)) ∧
      t = { s with
        backAsserted := if i = .beatAcknowledge bd then true else s.backAsserted
        bus := { s.bus with phase := t.bus.phase, pins := t.bus.pins } }

/-- BACK_N (R133, R135): its deassertion ends the release stage of a device-paced beat, which has its strobe asserted, and a
write its data driven; outside that stage a deassertion, and outside the acknowledge stage an assertion, changes nothing
but the level the part sees. That the part keeps the level it last saw, in every phase, is the model's reading (log 11). -/
def Obligations.BackNIsWatchedInItsStage : Prop :=
  (∀ (g : Grant) (a : Access) (op : BeatOp) (s : State), s.bus.phase = .running g a → a.stage = .release →
    beatOp a = some op →
    ∃ t, exec .beatRelease s = .next t ∧ t.bus.phase = .running g { a with stage := .acknowledge } ∧
      t.bus.pins.ba = s.bus.pins.ba ∧ t.bus.pins.bcs = s.bus.pins.bcs ∧ t.bus.pins.ble = s.bus.pins.ble ∧
      t.bus.pins.bhe = s.bus.pins.bhe ∧
      (op.isWrite = true → t.bus.pins.bwr = true ∧ t.bus.pins.bd = some (beatData a op.isSecond) ∧
        t.bus.pins.brd = s.bus.pins.brd) ∧
      (op.isWrite = false → t.bus.pins.brd = true ∧ t.bus.pins.bwr = s.bus.pins.bwr ∧ t.bus.pins.bd = s.bus.pins.bd) ∧
      t = { s with backAsserted := false, bus := { s.bus with phase := t.bus.phase, pins := t.bus.pins } }) ∧
  (∀ s : State, (∀ g a, s.bus.phase = .running g a → a.stage ≠ .release) →
    exec .beatRelease s = .next { s with backAsserted := false }) ∧
  ∀ (bd : Word) (s : State), (∀ g a, s.bus.phase = .running g a → a.stage ≠ .acknowledge) →
    exec (.beatAcknowledge bd) s = .next { s with backAsserted := true }

/-- The timeout of a device-paced beat, once TIMEOUT × 8 ticks have been counted in either stage, ends the access with outcome
TIMEOUT and no data but a write's driven value, its outputs released and its gathered data and staging buffer discarded
(R78, R134); before that it does not expire (log 12). That discarded data reads 0 and empty is the model's choice (log 29). -/
def Obligations.BeatTimeoutEndsTheAccess : Prop :=
  ∀ (g : Grant) (a : Access) (s : State), s.bus.phase = .running g a → a.stage ≠ .timed →
    (a.cap.timeout.toNat * 8 ≤ a.ticks →
      exec .beatTimeout s = .next { s with bus := { s.bus with
        pins := ⟨s.bus.pins.ba, none, false, false, false, false, none⟩
        phase := .reporting g { a with got := 0, announced := 0, staged := [], truncated := false } ⟨a.kind, .timeout, none,
          if a.kind = .write ∨ a.kind = .writeVerify then some a.driven else none, none, none⟩ } }) ∧
    (a.ticks < a.cap.timeout.toNat * 8 → exec .beatTimeout s = .next s)

/-- A completion that is not counted (R12, R25, R46, R47, R84): a RETIRING point becomes FREE, its segments returned, and a
RETIRE or CLEAR_ALL that waits for it completes OK; a point with REDEFINED set only loses IN_FLIGHT, REDEFINED and
WRITE_AGAIN, a READ_NOW that waits on it or made the access completes REDEFINED with a snapshot, the WRITE that set
WRITE_AGAIN asks for the owed write, a WRITE whose own write it was joins the owed write or asks again, and a command in any
other course, a joined WRITE among them, stays as it is. The engine then enters IDLE and grants its next request (R136). -/
def Obligations.UncountedCompletionsAreDiscarded : Prop :=
  ∀ (g : Grant) (x : Completion) (s : State), s.NextCompletion g x →
    let n := g.point
    let r := s.point n
    (r.state = .retiring → r.causes = 0 → s.freeSegs.Pairwise (· < ·) →
      ∃ t, exec .accessCompletion s = .next t ∧ t.point n = Point.free ∧ (∀ m, m ≠ n → t.point m = s.point m) ∧
        s.Returned t r.segments ∧
        (∀ p c k, s.busyWith p = some c → c.phase = .waitFree n k →
          t.port p = { s.port p with slot := {
            state := .done, result := .ok
            area := if CmdName.ofCode c.code = .clearAll then
                resultArea fun i => if i = 0 then place 0 k else if i = 1 then 1 else 0
              else zeroArea } }) ∧
        (∀ p, (∀ c k, s.busyWith p = some c → c.phase ≠ .waitFree n k) → t.port p = s.port p) ∧
        s.EngineFreed t (fun _ _ => False) ∧
        t = { s with points := t.points, freeSegs := t.freeSegs, primary := t.primary, maint := t.maint,
                     bus := t.bus }) ∧
    (r.state.isDefined = true → r.redefined = true →
      let own := fun p name => g.serving = true ∧ g.requester = .slot p ∧ s.WaitsIn p name .waitAccess n
      let redefines := fun p => s.WaitsIn p .readNow .waitPoint n ∨ own p .readNow
      let owes := fun p => s.WaitsIn p .write .waitPoint n ∧ r.writeAgain = true
      ∃ t, exec .accessCompletion s = .next t ∧
        t.point n = { r with inFlight := .none, redefined := false, writeAgain := false } ∧
        (∀ m, m ≠ n → t.point m = s.point m) ∧
        (∀ p, (redefines p → t.port p = { s.port p with slot := {
            state := .done, result := .redefined, area := t.snapshot n } }) ∧
          (owes p → s.MovesTo t p .waitGrant) ∧
          (own p .write → s.MovesTo t p (if r.writeAgain then .waitWrite else .waitGrant)) ∧
          (¬ redefines p → ¬ owes p → ¬ own p .write → t.port p = s.port p)) ∧
        s.EngineFreed t (fun p q => q = ⟨n, true⟩ ∧ (owes p ∨ (own p .write ∧ r.writeAgain = false))) ∧
        t = { s with points := t.points, primary := t.primary, maint := t.maint, bus := t.bus })

/-- A failed counted completion (R9, R91, R94, R95): FAILS, PROBE and STATE move by the thresholds, FAULT_AT first, with STALE
or FAULT raised as the state is entered and WRITE_FAIL for a write; IN_FLIGHT and WRITE_AGAIN are cleared; and every
other field, the block words and the other points are as they were. -/
def Obligations.FailedCompletionCountsInFails : Prop :=
  ∀ (g : Grant) (x : Completion) (s : State), s.NextCompletion g x → s.Counted g → s.NoticesAgree → x.outcome ≠ .ok →
    let n := g.point
    let r := s.point n
    let move : Health × Nat × Nat × Byte :=
      if r.state = .faulted then (.faulted, r.fails, 7, 0)
      else if r.fails + 1 = r.faultAt then (.faulted, r.fails + 1, 7, 0x08)
      else if r.fails + 1 = r.staleAt then (.stale, r.fails + 1, r.probe, 0x04)
      else (r.state, r.fails + 1, r.probe, 0)
    let writeFail : Byte := if x.kind = .write ∨ x.kind = .writeVerify then 0x80 else 0
    ∃ t, exec .accessCompletion s = .next t ∧
      t.point n = { r with
        inFlight := .none, writeAgain := false, causes := (t.point n).causes,
        state := move.1, fails := move.2.1, probe := move.2.2.1 } ∧
      s.Raised t n (writeFail ||| move.2.2.2) ∧
      (∀ m, m ≠ n → t.point m = s.point m) ∧ t.segWords = s.segWords ∧ s.CompletionFrame t n

/-- A good counted read of an INPUT point (R81, R83, R85 to R88, R95): VALUE takes the raw value extended by SIGNED; CHANGE is raised
from UNREAD or where the exact distance from REFERENCE exceeds DEADBAND, and REFERENCE follows; with LIMITS, ALARM moves
by the table of R87 against LOW, HIGH and their saturated hysteresis bounds; the point is ACTIVE with FAILS and PROBE 0,
and RECOVER raised from STALE or FAULTED. -/
def Obligations.GoodReadStoresTheValue : Prop :=
  ∀ (g : Grant) (x : Completion) (raw : Long) (s : State), s.NextCompletion g x → s.Counted g → s.NoticesAgree →
    x.kind = .read → x.outcome = .ok → x.raw = some raw →
    let n := g.point
    let r := s.point n
    let v : Long := match r.width with
      | .w8 => if r.signed then (raw.extractLsb' 0 8).signExtend 32 else (raw.extractLsb' 0 8).setWidth 32
      | .w16 => if r.signed then (raw.extractLsb' 0 16).signExtend 32 else (raw.extractLsb' 0 16).setWidth 32
      | .w32 => raw
    let num := fun y : Long => if r.signed then y.toInt else (y.toNat : Int)
    let change := r.state = .unread ∨ r.deadband.toNat < (num v - num r.reference).natAbs
    let bottom : Int := if r.signed then -2147483648 else 0
    let top : Int := if r.signed then 2147483647 else 4294967295
    let alarm : Alarm := if r.limits = true then
        match r.alarm with
        | .normal => if num r.high < num v then .high else if num v < num r.low then .low else .normal
        | .high => if num v < num r.low then .low
          else if num v < max bottom (num r.high - r.hyst.toNat) then .normal else .high
        | .low => if num r.high < num v then .high
          else if min top (num r.low + r.hyst.toNat) < num v then .normal else .low
      else r.alarm
    ∃ t, exec .accessCompletion s = .next t ∧
      ∃ reference : Long, (change → reference = v) ∧ (¬ change → reference = r.reference) ∧
      t.point n = { r with
        inFlight := .none, writeAgain := false, causes := (t.point n).causes,
        value := v, reference := reference, alarm := alarm, state := .active, fails := 0, probe := 0 } ∧
      (∃ changed : Byte, (change → changed = 0x01) ∧ (¬ change → changed = 0) ∧
        s.Raised t n (changed ||| (if alarm = r.alarm then 0 else 0x02) |||
          (if r.state = .stale ∨ r.state = .faulted then 0x10 else 0))) ∧
      (∀ m, m ≠ n → t.point m = s.point m) ∧ t.segWords = s.segWords ∧ s.CompletionFrame t n

/-- A good counted write of an OUTPUT point (R81, R89, R90, R95): VALUE takes the driven bits of a WRITE, or the read-back of a
WRITE_VERIFY, zero-extended; a read-back that differs from the driven bits raises VERIFY and adds 1 to MISMATCHES, up to
255; SHADOW is kept; the point is ACTIVE with FAILS and PROBE 0, and RECOVER raised from STALE or FAULTED. -/
def Obligations.GoodWriteStoresTheValue : Prop :=
  ∀ (g : Grant) (x : Completion) (driven : Long) (s : State), s.NextCompletion g x → s.Counted g → s.NoticesAgree →
    x.outcome = .ok → x.driven = some driven →
    let n := g.point
    let r := s.point n
    let low := fun y : Long => match r.width with
      | .w8 => (y.extractLsb' 0 8).setWidth 32
      | .w16 => (y.extractLsb' 0 16).setWidth 32
      | .w32 => y
    let recover : Byte := if r.state = .stale ∨ r.state = .faulted then 0x10 else 0
    (x.kind = .write →
      ∃ t, exec .accessCompletion s = .next t ∧
        t.point n = { r with
          inFlight := .none, writeAgain := false, causes := (t.point n).causes, value := low driven,
          state := .active, fails := 0, probe := 0 } ∧
        s.Raised t n recover ∧
        (∀ m, m ≠ n → t.point m = s.point m) ∧ t.segWords = s.segWords ∧ s.CompletionFrame t n) ∧
    ∀ back, x.kind = .writeVerify → x.readBack = some back →
      ∃ t, exec .accessCompletion s = .next t ∧
        t.point n = { r with
          inFlight := .none, writeAgain := false, causes := (t.point n).causes, value := low back,
          mismatches := if low back = low driven then r.mismatches else min 255 (r.mismatches + 1),
          state := .active, fails := 0, probe := 0 } ∧
        s.Raised t n ((if low back = low driven then 0 else 0x20) ||| recover) ∧
        (∀ m, m ≠ n → t.point m = s.point m) ∧ t.segWords = s.segWords ∧ s.CompletionFrame t n

/-- A good counted block read (R92, R95, R116): delivered word i becomes block word i and the rest of the block becomes zero;
LAST_LEN takes the delivered count and VALUE block word 0; CHANGE is raised from UNREAD, where the count differs from
LAST_LEN, or where a delivered word differs from the block word it replaces, and TRUNCATE where it is indicated; the
point is ACTIVE with FAILS and PROBE 0, and RECOVER raised from STALE or FAULTED. No other segment changes. -/
def Obligations.GoodBlockReadIsCommitted : Prop :=
  ∀ (g : Grant) (x : Completion) (d : BlockData) (s : State), s.NextCompletion g x → s.Counted g → s.Consistent →
    x.kind = .blockRead → x.outcome = .ok → x.block = some d →
    let n := g.point
    let r := s.point n
    r.kind = .block → d.words.length ≤ r.blockLen →
    let change := r.state = .unread ∨ d.words.length ≠ r.lastLen ∨
      ∃ i, i < d.words.length ∧ d.words[i]? ≠ some (s.blockWord r i)
    ∃ t, exec .accessCompletion s = .next t ∧
      t.point n = { r with
        inFlight := .none, writeAgain := false, causes := (t.point n).causes, lastLen := d.words.length,
        value := (d.words.headD 0).setWidth 32, state := .active, fails := 0, probe := 0 } ∧
      (∀ i, i < r.blockLen → t.blockWord (t.point n) i = d.words.getD i 0) ∧
      (∀ y : SegNo, y ∉ r.segments → t.segWords[y.val] = s.segWords[y.val]) ∧
      (∃ changed : Byte, (change → changed = 0x01) ∧ (¬ change → changed = 0) ∧
        s.Raised t n (changed ||| (if d.truncated then 0x40 else 0) |||
          (if r.state = .stale ∨ r.state = .faulted then 0x10 else 0))) ∧
      (∀ m, m ≠ n → t.point m = s.point m) ∧ s.CompletionFrame t n

/-- What a counted completion does to the commands that wait on it (R42, R43, R46, R47): the READ_NOW or WRITE that made the
access, and a WRITE joined to the other slot's own write, complete with a snapshot, OK for outcome OK and BUS_FAIL
otherwise; a READ_NOW that waited for the access to end asks for its own, and the WRITE that set WRITE_AGAIN for the owed
write; a command in any other course, such as a WRITE joined to a write not yet made, stays as it is. The engine then
enters IDLE and grants its next request (R123, R136). -/
def Obligations.CountedCompletionMovesTheCommands : Prop :=
  ∀ (g : Grant) (x : Completion) (s : State), s.NextCompletion g x → s.Counted g →
    let n := g.point
    let own := fun p name => g.serving = true ∧ g.requester = .slot p ∧ s.WaitsIn p name .waitAccess n
    let ends := fun p =>
      own p .readNow ∨ own p .write ∨ (own (otherPort p) .write ∧ s.WaitsIn p .write .waitWrite n)
    ∃ t, exec .accessCompletion s = .next t ∧ s.EngineFreed t (s.CountedAsks n) ∧ ∀ p,
      (ends p → t.port p = { s.port p with slot := {
          state := .done, result := if x.outcome = .ok then .ok else .busFail, area := t.snapshot n } }) ∧
      ((∃ q, s.CountedAsks n p q) → s.MovesTo t p .waitGrant) ∧
      (¬ ends p → (∀ q, ¬ s.CountedAsks n p q) → t.port p = s.port p)

/-! ### The scan engine (chapter 3) -/

/-- The expiry of a running class timer that has reached 0 reloads the count (R57); an IDLE class with a non-empty chain
starts a pass at HEAD, and with an empty one nothing else happens (R58); a class IN_PASS goes on, OVERRUN_COUNT rises by 1
up to 255, and OVERRUN is set (R59). -/
def Obligations.ExpiryStartsAPassOrCountsAnOverrun : Prop :=
  ∀ (c : ClassNo) (s : State), s.scan.run = true → s.loading = false →
    let x := s.classState c
    x.period ≠ 0 → x.remaining = 0 →
    ∃ t, exec (.classTimerExpiry c) s = .next t ∧
      (x.inPass = false → (s.chain (some c)).head = none →
        t.classState c = { x with remaining := x.period }) ∧
      (∀ h, x.inPass = false → (s.chain (some c)).head = some h →
        t.classState c = { x with remaining := x.period, inPass := true, cursor := some h }) ∧
      (x.inPass = true → t.classState c =
        { x with remaining := x.period, overrun := true, overrunCount := min 255 (x.overrunCount + 1) }) ∧
      (∀ k, k ≠ c → t.classState k = s.classState k) ∧
      t = { s with scan := { s.scan with classes := t.scan.classes } }

/-- The timebase (R56, R57): periods of CLK pass one after another; each adds to the length of the running beat, each 25th
is a 1 µs tick, which adds to its timeout count, and each 1000th of those is a 1 ms tick, on which the remaining count of
each class falls by 1 whose PERIOD is not 0, while SCAN_RUN is set and the part is not LOADING (R55). A count that stands
at 0 has an expiry waiting, which is taken first, the reloaded count then falling by 1 (the model's reading, log 10). Any
number of periods completes (that one row carries a number of periods is the model's choice, log 9). -/
def Obligations.TimebaseCountsPeriods : Prop :=
  (∀ (n : Nat) (s : State), ∃ t, exec (.timebaseTick n) s = .next t ∧
    let ticks := if n = 0 then 0 else (min s.timebase.clk 24 + n) / 25
    t.timebase.clk = (if n = 0 then s.timebase.clk else (min s.timebase.clk 24 + n) % 25) ∧
    t.timebase.us = (if ticks = 0 then s.timebase.us else (min s.timebase.us 999 + ticks) % 1000) ∧
    t.bus.phase = (match s.bus.phase with
      | .running g a => .running g { a with clks := a.clks + n, ticks := a.ticks + ticks }
      | _ => s.bus.phase) ∧
    (∀ c, s.scan.run = false ∨ s.loading = true ∨ (s.classState c).period = 0 → t.classState c = s.classState c) ∧
    t = { s with timebase := t.timebase, scan := { s.scan with classes := t.scan.classes },
                 bus := { s.bus with phase := t.bus.phase } }) ∧
  (∀ (m n : Nat) (s u : State), exec (.timebaseTick m) s = .next u →
    exec (.timebaseTick (m + n)) s = exec (.timebaseTick n) u) ∧
  ∀ s : State, ∃ t, exec (.timebaseTick 1) s = .next t ∧
    let millisecond := 25 ≤ s.timebase.clk + 1 ∧ 1000 ≤ s.timebase.us + 1
    (¬ millisecond → t.scan = s.scan) ∧
    ∀ c, millisecond → s.scan.run = true → s.loading = false → (s.classState c).period ≠ 0 →
      let x := s.classState c
      (x.remaining ≠ 0 → t.classState c = { x with remaining := x.remaining - 1 }) ∧
      (x.remaining = 0 → x.inPass = true → t.classState c = { x with
        remaining := x.period - 1, overrun := true, overrunCount := min 255 (x.overrunCount + 1) }) ∧
      (x.remaining = 0 → x.inPass = false → (s.chain (some c)).head = none →
        t.classState c = { x with remaining := x.period - 1 }) ∧
      ∀ h, x.remaining = 0 → x.inPass = false → (s.chain (some c)).head = some h →
        t.classState c = { x with remaining := x.period - 1, inPass := true, cursor := some h }

/-- The scan engine's choice, with its request state FREE, SCAN_RUN set and the part not LOADING (R68, R71): the sweep in
progress; else the start of a sweep of the lowest region whose flag is set, which clears the flag; else the lowest class
in pass; else nothing. In any other state it makes no choice, and the event leaves the state as it is (the model's choice,
log 2). -/
def Obligations.ScanChoosesByPriority : Prop :=
  (∀ s : State, s.scan.req = .free → s.scan.run = true → s.loading = false →
    (∀ r, s.scan.sweep = some r →
      exec .scanChoose s = .next { s with scan := { s.scan with req := .visiting (.sweep r) } }) ∧
    (∀ r, s.scan.sweep = none → s.pendingFlag r = true → (∀ x, x < r → s.pendingFlag x = false) →
      exec .scanChoose s = .next { s with scan := { s.scan with
        pendingFlags := s.scan.pendingFlags.set r.val false, sweep := some r, sweepCursor := 0,
        req := .visiting (.sweep r) } }) ∧
    (∀ c, s.scan.sweep = none → (∀ x, s.pendingFlag x = false) → (s.classState c).inPass = true →
      (∀ x, x < c → (s.classState x).inPass = false) →
      exec .scanChoose s = .next { s with scan := { s.scan with req := .visiting (.pass c) } }) ∧
    (s.scan.sweep = none → (∀ x, s.pendingFlag x = false) → (∀ c, (s.classState c).inPass = false) →
      exec .scanChoose s = .next s)) ∧
  ∀ s : State, s.scan.req ≠ .free ∨ s.scan.run = false ∨ s.loading = true → exec .scanChoose s = .next s

/-- A visit taken in its turn (R62, R63, R69), which counts as the request taken last also where it concerns no point (log 3).
Of a pass: the point at the cursor is ruled on and the cursor takes its NEXT,
the pass ending with END; with the cursor at END it concerns no point. Of a sweep: the lowest qualifying point at or above
the cursor is ruled on and the cursor takes its number plus 1; with none the sweep ends, its cursor kept (the model's choice, log 18), and after
point 255 as well. -/
def Obligations.VisitRulesAndMovesTheCursor : Prop :=
  ∀ s : State, s.tableTurn = some .scan → s.EngineAgrees →
    let qualifies := fun (r : RegionNo) (n : PointNo) =>
      (s.point n).region = r ∧ (s.point n).attnRead = true ∧
      ((s.point n).kind = .input ∨ (s.point n).kind = .block) ∧ (s.point n).state.isDefined = true
    (∀ c n, s.scan.req = .visiting (.pass c) → (s.classState c).cursor = some n →
      ∃ t, exec .visit s = .next t ∧ s.Ruled t n ∧
        t.classState c = { s.classState c with inPass := (s.point n).next.isSome, cursor := (s.point n).next } ∧
        (∀ k, k ≠ c → t.classState k = s.classState k) ∧
        t = { s with points := t.points, bus := t.bus, lastTaken := .scan,
                     scan := { s.scan with classes := t.scan.classes, req := t.scan.req } }) ∧
    (∀ c, s.scan.req = .visiting (.pass c) → (s.classState c).cursor = none →
      exec .visit s = .next { s with lastTaken := .scan, scan := { s.scan with req := .free } }) ∧
    (∀ r n, s.scan.req = .visiting (.sweep r) → qualifies r n → s.scan.sweepCursor ≤ n.val →
      (∀ m, m < n → s.scan.sweepCursor ≤ m.val → ¬ qualifies r m) →
      ∃ t, exec .visit s = .next t ∧ s.Ruled t n ∧ t.scan.sweepCursor = n.val + 1 ∧
        t.scan.sweep = (if n.val = 255 then none else s.scan.sweep) ∧
        t = { s with points := t.points, bus := t.bus, lastTaken := .scan,
                     scan := { s.scan with
                       sweep := t.scan.sweep, sweepCursor := t.scan.sweepCursor, req := t.scan.req } }) ∧
    ∀ r, s.scan.req = .visiting (.sweep r) → (∀ n, s.scan.sweepCursor ≤ n.val → ¬ qualifies r n) →
      exec .visit s = .next { s with lastTaken := .scan, scan := { s.scan with req := .free, sweep := none } }

/-! ### The attention unit (chapter 7) -/

/-- A change of an attention pin's level (R141 to R144): the live level follows; a matching edge sets the pending flag of
the line's REGION and EDGE_SEEN; a level-mode line that becomes asserted sets the flag, and one that is released leaves it
set, where it was cleared and not yet set again as well (R143; the model's reading, log 25); any other event sets neither.
A line asserted in a level mode sets its region's flag again (R143), and ATTENTION_FLAG_SET_AGAIN of any other line leaves
the state as it is (the model's choice, log 2). While LOADING the unit sets nothing (R55). -/
def Obligations.AttentionEventsSetTheFlag : Prop :=
  (∀ (l : LineNo) (high : Bool) (s : State), (s.line l).live ≠ high →
    let x := s.line l
    let edge := (x.mode = .rise ∧ high = true) ∨ (x.mode = .fall ∧ high = false)
    let level := x.mode = .high ∨ x.mode = .low
    ∃ t, exec (.atnEvent l high) s = .next t ∧
      t.line l = { x with live := high, edgeSeen := (t.line l).edgeSeen } ∧
      (∀ m, m ≠ l → t.line m = s.line m) ∧
      (s.loading = false → edge → (t.line l).edgeSeen = true) ∧
      (s.loading = true ∨ ¬ edge → (t.line l).edgeSeen = x.edgeSeen) ∧
      (s.loading = false → edge ∨ level → t.pendingFlag x.region = true) ∧
      (s.loading = true ∨ (¬ edge ∧ ¬ level) → t.scan = s.scan) ∧
      (∀ r, r ≠ x.region → t.pendingFlag r = s.pendingFlag r) ∧
      t = { s with lines := t.lines, scan := { s.scan with pendingFlags := t.scan.pendingFlags } }) ∧
  ∀ (l : LineNo) (s : State),
    let x := s.line l
    (s.loading = false → (x.mode = .high ∧ x.live = true) ∨ (x.mode = .low ∧ x.live = false) →
      exec (.attentionFlagSetAgain l) s = .next { s with scan := { s.scan with
        pendingFlags := s.scan.pendingFlags.set x.region.val true } }) ∧
    (s.loading = true ∨ ¬ ((x.mode = .high ∧ x.live = true) ∨ (x.mode = .low ∧ x.live = false)) →
      exec (.attentionFlagSetAgain l) s = .next s)

/-- Writes to ATTN_CONFIG_n, ATTN_STATE and CLASS_STATE (R60, R145 to R147): a field whose write enable is set gives its line
MODE, an encoding of no mode taken as OFF, and REGION, a line then asserted in a level mode setting the flag of that
region; a 1 in an EDGE_SEEN or OVERRUN position clears that flag; and nothing else changes. -/
def Obligations.AttentionAndClassWrites : Prop :=
  ∀ (v : Via) (w : Word) (s : State),
    (∀ (n : Fin 4), s.WritesTo v (Reg.attnConfig n) →
      let enabled := fun l : LineNo => l.val / 2 = n.val ∧ flag w (8 * (l.val % 2) + 7) = true
      let mode := fun l : LineNo => match field w (8 * (l.val % 2) + 4) 3 with
        | 1 => LineMode.rise | 2 => .fall | 3 => .high | 4 => .low | _ => .off
      let asserts := fun l : LineNo => enabled l ∧
        ((mode l = .high ∧ (s.line l).live = true) ∨ (mode l = .low ∧ (s.line l).live = false))
      ∃ t, exec (.attnConfigWrite v n w) s = .next t ∧
        (∀ l, enabled l → (t.line l).mode = mode l ∧ (t.line l).region.val = field w (8 * (l.val % 2)) 3 ∧
          (t.line l).live = (s.line l).live ∧ (t.line l).edgeSeen = (s.line l).edgeSeen) ∧
        (∀ l, ¬ enabled l → t.line l = s.line l) ∧
        (∀ r, t.pendingFlag r = true ↔ s.pendingFlag r = true ∨ ∃ l, asserts l ∧ (t.line l).region = r) ∧
        t = { s with lines := t.lines, scan := { s.scan with pendingFlags := t.scan.pendingFlags } }) ∧
    (s.WritesTo v Reg.attnState →
      ∃ t, exec (.edgeSeenClear v w) s = .next t ∧
        (∀ l, t.line l = { s.line l with edgeSeen := (s.line l).edgeSeen && !flag w (8 + l.val) }) ∧
        t = { s with lines := t.lines }) ∧
    (s.WritesTo v Reg.classState →
      ∃ t, exec (.overrunClear v w) s = .next t ∧
        (∀ c, t.classState c = { s.classState c with overrun := (s.classState c).overrun && !flag w (4 + c.val) }) ∧
        t = { s with scan := { s.scan with classes := t.scan.classes } })

/-! ### The notification unit (chapter 8) -/

/-- A word read from CLAIM (R153 to R156): from the selected level, or from the first open level of the order with a member,
the lowest-numbered member is returned and its number, causes and value are latched; at an AUTO level its causes are
emptied and it leaves its set, at an ACK level nothing of it changes. A claim that finds nothing returns 0x0100 and zeroes
the port's claim registers. Either way the selection is removed. -/
def Obligations.ClaimTakesTheFirstNotice : Prop :=
  ∀ (v : Via) (s : State), s.ReadsFrom v Reg.claim → s.NoticesAgree →
    let p := v.port
    let from_ := fun u : Level => (s.port p).claimLevel = some u ∨ ((s.port p).claimLevel = none ∧
      ∃ before after, s.notify.order.toList = before ++ u :: after ∧
        s.notify.mask.getLsbD u.val = true ∧ s.noticeSet u ≠ [] ∧
        ∀ x ∈ before, s.notify.mask.getLsbD x.val = false ∨ s.noticeSet x = [])
    (∀ (u : Level) (n : PointNo), from_ u → n ∈ s.noticeSet u → (∀ m ∈ s.noticeSet u, n ≤ m) →
      ∃ t, exec (.claim v) s = .next t ∧
        t.port p = { s.port p with
          claimCauses := wordOf (BitVec.ofNat 8 n.val) (s.point n).causes, claimValue := (s.point n).value
          claimLevel := none, sent := BitVec.ofNat 16 n.val } ∧
        t.port (otherPort p) = s.port (otherPort p) ∧
        (s.notify.type.getLsbD u.val = false →
          t.point n = { s.point n with causes := 0 } ∧ (∀ m, m ≠ n → t.point m = s.point m) ∧ s.LeavesNotices t n) ∧
        (s.notify.type.getLsbD u.val = true → t.points = s.points ∧ t.notify = s.notify) ∧
        t = { s with
          points := t.points, notify := { s.notify with sets := t.notify.sets }, primary := t.primary
          maint := t.maint, i2cWriteOpen := t.i2cWriteOpen
          sdo := match v with | .spi => t.sdo | .i2c _ => s.sdo }) ∧
    ((∀ u, from_ u → s.noticeSet u = []) →
      ∃ t, exec (.claim v) s = .next t ∧
        t.port p = { s.port p with claimCauses := 0, claimValue := 0, claimLevel := none, sent := 0x0100 } ∧
        t.port (otherPort p) = s.port (otherPort p) ∧
        t = { s with
          primary := t.primary, maint := t.maint, i2cWriteOpen := t.i2cWriteOpen
          sdo := match v with | .spi => t.sdo | .i2c _ => s.sdo })

/-- Writes to ACK, CLAIM_LEVEL, LEVEL_MASK, LEVEL_TYPE, LEVEL_ORDER_LO and LEVEL_ORDER_HI (R150, R151, R156, R158): ACK removes
the named causes, the point leaving its set when none is left; 0 to 7 selects a level for the port's next claim and any
other value removes the selection; masks and types are replaced; the staged copy of entries 0 to 3 is replaced, and the
pair it makes with the written entries 4 to 7 becomes the order where it holds each level once, ORDER_ERR being set
otherwise. Nothing else changes. -/
def Obligations.NotificationWrites : Prop :=
  ∀ (v : Via) (w : Word) (s : State),
    let p := v.port
    (s.WritesTo v Reg.ack → s.NoticesAgree →
      let n : PointNo := (hiByte w).toFin
      let left := (s.point n).causes &&& ~~~(loByte w)
      ∃ t, exec (.ack v w) s = .next t ∧
        t.point n = { s.point n with causes := left } ∧ (∀ m, m ≠ n → t.point m = s.point m) ∧
        (left = 0 → s.LeavesNotices t n) ∧ (left ≠ 0 → t.notify = s.notify) ∧
        t = { s with points := t.points, notify := { s.notify with sets := t.notify.sets } }) ∧
    (s.WritesTo v Reg.claimLevel →
      ∃ t, exec (.claimLevel v w) s = .next t ∧ s.PortOnly t p ∧
        t.port p = { s.port p with claimLevel := (t.port p).claimLevel } ∧
        (∀ u : Level, u.val = w.toNat → (t.port p).claimLevel = some u) ∧
        (8 ≤ w.toNat → (t.port p).claimLevel = none)) ∧
    (s.WritesTo v Reg.levelMask →
      exec (.levelMask v w) s = .next { s with notify := { s.notify with mask := loByte w } }) ∧
    (s.WritesTo v Reg.levelType →
      exec (.levelType v w) s = .next { s with notify := { s.notify with type := loByte w } }) ∧
    (s.WritesTo v Reg.levelOrderLo →
      ∃ t, exec (.levelOrderLo v w) s = .next t ∧ s.PortOnly t p ∧
        t.port p = { s.port p with stagedLo := w }) ∧
    (s.WritesTo v Reg.levelOrderHi →
      let lo := (s.port p).stagedLo
      let entries := [nibble lo 0, nibble lo 1, nibble lo 2, nibble lo 3, nibble w 0, nibble w 1, nibble w 2, nibble w 3]
      ((∀ u, u < 8 → entries.count u = 1) →
        ∃ t, exec (.levelOrderHi v w) s = .next t ∧ t.notify.order.toList.map (·.val) = entries ∧
          t = { s with notify := { s.notify with order := t.notify.order } }) ∧
      (¬ (∀ u, u < 8 → entries.count u = 1) →
        exec (.levelOrderHi v w) s = .next { s with notify := { s.notify with orderErr := true } }))

/-- INT_N is asserted exactly while NOTIFY_EN is set and an open level has a member, or a port whose slot is DONE has its
DONE_INT set (R160, R161); STATUS shows the same value at INT to both ports; and it is released while LOADING. -/
def Obligations.InterruptLineFollowsItsConditions : Prop :=
  (∀ s : State, s.intAsserted = true ↔
    (s.notify.notifyEn = true ∧ ∃ v : Level, s.notify.mask.getLsbD v.val = true ∧ s.noticeSet v ≠ []) ∨
    ∃ p, (s.slot p).state = .done ∧ (s.port p).doneInt = true) ∧
  (∀ (s : State) (p : Port), flag (s.statusView p) 5 = s.intAsserted) ∧
  ∀ s : State, s.LoadingQuiet → s.loading = true → s.intAsserted = false

/-! ### The ports (chapter 9) and the resets -/

/-- A CONTROL write that is no warm reset (R73, R74, R159, R160, R168): SCAN_RUN, NOTIFY_EN and the port's DONE_INT take the
written values. Clearing SCAN_RUN while it is set ends every pass and the sweep and withdraws the scan engine's waiting
request, a granted one going on; setting it, or clearing it while clear, changes nothing else. -/
def Obligations.ControlWritesAreApplied : Prop :=
  ∀ (i : Instr) (v : Via) (run notifyEn doneInt : Bool) (s : State), AppliesControl i v run notifyEn doneInt →
    s.WritesTo v Reg.control →
    ∃ t, exec i s = .next t ∧
      t.scan.run = run ∧ t.notify = { s.notify with notifyEn := notifyEn } ∧
      t.port v.port = { s.port v.port with doneInt := doneInt } ∧
      t.port (otherPort v.port) = s.port (otherPort v.port) ∧
      (run = true ∨ s.scan.run = false → t.scan = { s.scan with run := run } ∧ t.bus = s.bus) ∧
      (run = false → s.scan.run = true →
        (∀ c, t.classState c = { s.classState c with inPass := false, cursor := none }) ∧
        t.scan.sweep = none ∧ t.scan.sweepCursor = 0 ∧ t.scan.pendingFlags = s.scan.pendingFlags ∧
        (s.scan.req ≠ .requested → t.scan.req = .free ∧ t.bus = s.bus) ∧
        (s.scan.req = .requested → s.entry .scan ≠ none →
          t.scan.req = .free ∧ t.entry .scan = none ∧ (∀ r, r ≠ .scan → t.entry r = s.entry r) ∧
          t.bus = { s.bus with entries := t.bus.entries }) ∧
        (s.scan.req = .requested → s.entry .scan = none → t.scan.req = .requested ∧ t.bus = s.bus)) ∧
      t = { s with
        scan := t.scan, bus := t.bus, notify := t.notify, primary := t.primary, maint := t.maint }

/-- A CONTROL write with WARM from the primary port is a warm reset and nothing else (R13, R50, R75, R138, R139, R162, R168):
RETIRING points become FREE and their segments return; every other record loses its access, its causes and its hold;
BUSY slots end ABORTED with their result area as it stood; the scan engine's work and flags end and SCAN_RUN is clear; the
engine is IDLE with an empty table, MAINT last granted and its outputs released; every notice set is empty; configuration,
values, chains and the rest are kept. -/
def Obligations.WarmResetEndsTheWork : Prop :=
  ∀ (v : Via) (run notifyEn doneInt : Bool) (s : State), v.port = .primary → s.WritesTo v Reg.control →
    s.freeSegs.Pairwise (· < ·) →
    ∃ t, exec (.warm v run notifyEn doneInt) s = .next t ∧
      (∀ n, (s.point n).state = .retiring → t.point n = Point.free) ∧
      (∀ n, (s.point n).state ≠ .retiring → t.point n = { s.point n with
        inFlight := .none, redefined := false, writeAgain := false, causes := 0, holder := none }) ∧
      t.freeSegs.Pairwise (· < ·) ∧
      (∀ g, g ∈ t.freeSegs ↔
        g ∈ s.freeSegs ∨ ∃ n, (s.point n).state = .retiring ∧ g ∈ (s.point n).segments) ∧
      (∀ p c, s.busyWith p = some c → t.port p = { s.port p with
        claimLevel := none, slot := { s.slot p with state := .done, result := .aborted } }) ∧
      (∀ p, s.busyWith p = none → t.port p = { s.port p with claimLevel := none }) ∧
      (∀ c, t.classState c = { s.classState c with inPass := false, cursor := none }) ∧
      (∀ r, t.pendingFlag r = false) ∧ t.scan.run = false ∧ t.scan.sweep = none ∧ t.scan.sweepCursor = 0 ∧
      t.scan.req = .free ∧
      t.bus = { s.bus with
        entries := ⟨none, none, none⟩, lastGranted := .slot .maint, phase := .idle,
        pins := ⟨s.bus.pins.ba, none, false, false, false, false, none⟩ } ∧
      (∀ u, t.noticeSet u = []) ∧ t.lastTaken = .scan ∧
      t = { s with
        points := t.points, freeSegs := t.freeSegs, lastTaken := t.lastTaken, primary := t.primary, maint := t.maint,
        scan := t.scan, bus := t.bus, notify := { s.notify with sets := t.notify.sets } }

/-- The block area and the framing of the ports (R164, R165, R167): a word read from or written to BLK_DATA reaches the
block-area word at BLK_ADDR, stored in the parameter area only, and BLK_ADDR advances by 1, from 127 to 0. A command byte
fixes direction and register, so that the words after it reach that register and no other, with SDO low, and SCS_N rising
ends the transfer, after which no word is taken and SDO is undriven. The pointer byte of an acknowledged write transaction
sets the pointer, so that words to the part's own address are written to and read from that register; one to another
address, or while LOADING, leaves it (R170), and no word is written until the next. A word read on I2C ends the write
transaction before it. (The framing by words is log 8's, and SDO as the word it drove last is log 26's.) -/
def Obligations.BlockAreaAndFraming : Prop :=
  (∀ (v : Via) (s : State), s.ReadsFrom v Reg.blkData →
    let p := v.port
    let a := (s.port p).blkAddr.toNat
    ∃ t, exec (.blkDataRead v) s = .next t ∧
      t.port p = { s.port p with blkAddr := (t.port p).blkAddr, sent := (t.port p).sent } ∧
      (t.port p).blkAddr.toNat = (a + 1) % 128 ∧
      (∀ k : Fin 16, a = k.val → (t.port p).sent = (s.port p).params[k.val]) ∧
      (∀ k : Fin 64, a = 16 + k.val → (t.port p).sent = (s.slot p).area[k.val]) ∧
      (80 ≤ a → (t.port p).sent = 0) ∧
      t.port (otherPort p) = s.port (otherPort p) ∧
      t = { s with
        primary := t.primary, maint := t.maint
        i2cWriteOpen := match v with | .spi => s.i2cWriteOpen | .i2c _ => false
        sdo := match v with | .spi => .word (t.port p).sent | .i2c _ => s.sdo }) ∧
  (∀ (v : Via) (w : Word) (s : State), s.WritesTo v Reg.blkData →
    let p := v.port
    let a := (s.port p).blkAddr.toNat
    ∃ t, exec (.blkDataWrite v w) s = .next t ∧ s.PortOnly t p ∧
      t.port p = { s.port p with blkAddr := (t.port p).blkAddr, params := (t.port p).params } ∧
      (t.port p).blkAddr.toNat = (a + 1) % 128 ∧
      ∀ k : Fin 16, (t.port p).params[k.val] = if a = k.val then w else (s.port p).params[k.val]) ∧
  (∀ (b : Byte) (s : State), s.spi = .ready →
    let addr := b.extractLsb' 0 7
    ∃ t, exec (.commandByte b) s = .next t ∧
      t = { s with spi := .active (b.getLsbD 7) addr, sdo := .low } ∧
      (∀ y, t.WritesTo .spi y ↔ b.getLsbD 7 = false ∧ y = addr ∧ s.loading = false) ∧
      ∀ y, t.ReadsFrom .spi y ↔ b.getLsbD 7 = true ∧ y = addr ∧ s.loading = false) ∧
  (∀ s : State, ∃ t, exec .transferEnd s = .next t ∧ t = { s with spi := .ready, sdo := .undriven } ∧
    ∀ y, ¬ t.WritesTo .spi y ∧ ¬ t.ReadsFrom .spi y) ∧
  (∀ (target : BitVec 7) (b : Byte) (s : State),
    let addr := b.extractLsb' 0 7
    (target = s.i2cAddr → s.loading = false →
      ∃ t, exec (.pointerWrite target b) s = .next t ∧
        t = { s with pointer := addr, i2cWriteOpen := true } ∧
        ∀ z y, (t.WritesTo (.i2c z) y ↔ z = s.i2cAddr ∧ y = addr) ∧ (t.ReadsFrom (.i2c z) y ↔ z = s.i2cAddr ∧ y = addr)) ∧
    (target ≠ s.i2cAddr ∨ s.loading = true →
      ∃ t, exec (.pointerWrite target b) s = .next t ∧ t = { s with i2cWriteOpen := false } ∧
        ∀ z y, ¬ t.WritesTo (.i2c z) y)) ∧
  ∀ (z : BitVec 7) (s t : State), (∃ a, s.ReadsFrom (.i2c z) a ∧
    ((a = Reg.claim ∧ exec (.claim (.i2c z)) s = .next t) ∨
      (a = Reg.blkData ∧ exec (.blkDataRead (.i2c z)) s = .next t))) → ∀ x y, ¬ t.WritesTo (.i2c x) y

/-- STATUS writes clear ORDER_ERR and the writing port's COLLISION where they hold 1 (R169); BLK_ADDR takes bits 6 to 0
(R167); a write to a read-only or unused register is ignored (R164, R166), and one to CLAIM, of which the spec does not
speak (the model's choice, log 28); and while LOADING every write is ignored (R170). -/
def Obligations.RegisterWritesAreTakenOrIgnored : Prop :=
  (∀ (v : Via) (b : Bool) (s : State), s.WritesTo v Reg.status →
    let p := v.port
    (∃ t, exec (.orderErrClear v b) s = .next t ∧ t.notify = { s.notify with orderErr := false } ∧
      t.port p = { s.port p with collision := (s.port p).collision && !b } ∧
      t.port (otherPort p) = s.port (otherPort p) ∧
      t = { s with notify := t.notify, primary := t.primary, maint := t.maint }) ∧
    (∃ t, exec (.collisionClear v b) s = .next t ∧
      t.notify = { s.notify with orderErr := s.notify.orderErr && !b } ∧
      t.port p = { s.port p with collision := false } ∧
      t.port (otherPort p) = s.port (otherPort p) ∧
      t = { s with notify := t.notify, primary := t.primary, maint := t.maint })) ∧
  (∀ (v : Via) (w : Word) (s : State), s.WritesTo v Reg.blkAddr →
    ∃ t, exec (.registerWrite v Reg.blkAddr w) s = .next t ∧ s.PortOnly t v.port ∧
      t.port v.port = { s.port v.port with blkAddr := w.extractLsb' 0 7 }) ∧
  (∀ (v : Via) (addr : BitVec 7) (w : Word) (s : State), s.WritesTo v addr → addr ≠ Reg.blkAddr →
    ownBehaviour addr = false → exec (.registerWrite v addr w) s = .next s) ∧
  ∀ (v : Via) (w : Word) (b : Byte) (x y z : Bool) (n : Fin 4) (addr : BitVec 7) (s : State), s.loading = true →
    ∀ i ∈ [Instr.cmdWrite v w, .dismiss v b, .blkDataWrite v w, .registerWrite v addr w, .scanRunSet v x y,
      .scanRunClear v x y, .notifyEn v x y z, .doneInt v x y z, .warm v x y z, .orderErrClear v x,
      .collisionClear v x, .attnConfigWrite v n w, .edgeSeenClear v w, .overrunClear v w, .claimLevel v w, .ack v w,
      .levelMask v w, .levelType v w, .levelOrderLo v w, .levelOrderHi v w],
    exec i s = .next s

/-! ### The boot loader (chapter 10) -/

/-- The end of the verify pass, read from byte 0 of the EEPROM at 0x50 (R178, R179, R182), the first case that applies: blank
where word 0 reads 0xFFFF; a failure where the transaction fails, the signature or the version is wrong, a count exceeds its
bound, or the sum of the image is not 0; otherwise sound, R and P kept and the apply pass entered with a fresh sum. While no
case applies yet, the pass has not ended (the model's choice, log 15). Only the loader's own state, and the order of the
table engine as loading ends, change. -/
def Obligations.VerifyPassJudgesTheImage : Prop :=
  ∀ (s : State), s.loader.state = .verify →
    let ends := fun (r : EepromAnswer) (fail : Bool) =>
      exec (.verifyPass ⟨0x50, 0, r⟩) s = .next { s with
        lastTaken := .scan, loader := { s.loader with fail := fail, state := .done } }
    ends .failed true ∧
    ∀ (bs : List Byte),
      let w := fun i => (wordsOf bs).getD i 0
      let n := 12 + 6 * (w 2).toNat + 14 * (w 3).toNat + 1
      let words := bs.length / 2
      let starts := w 0 = 0x61C4 ∧ w 1 = 1
      (1 ≤ words → w 0 = 0xFFFF → ends (.bytes bs) s.loader.fail) ∧
      (1 ≤ words → w 0 ≠ 0xFFFF → w 0 ≠ 0x61C4 → ends (.bytes bs) true) ∧
      (2 ≤ words → w 0 = 0x61C4 → w 1 ≠ 1 → ends (.bytes bs) true) ∧
      (3 ≤ words → starts → 8 < (w 2).toNat → ends (.bytes bs) true) ∧
      (4 ≤ words → starts → 256 < (w 3).toNat → ends (.bytes bs) true) ∧
      (n ≤ words → starts → (w 2).toNat ≤ 8 → (w 3).toNat ≤ 256 →
        (((wordsOf bs).take n).sum ≠ 0 → ends (.bytes bs) true) ∧
        (((wordsOf bs).take n).sum = 0 →
          ∃ t, exec (.verifyPass ⟨0x50, 0, .bytes bs⟩) s = .next t ∧ t.loader.state = .apply ∧
            t.loader.regions = (w 2).toNat ∧ t.loader.points = (w 3).toNat ∧ t.loader.headerDone = false ∧
            t.loader.regionsDone = 0 ∧ t.loader.pointsDone = 0 ∧ t.loader.sum = 0 ∧ t.loader.fail = s.loader.fail ∧
            t = { s with loader := t.loader })) ∧
      (words = 0 ∨ (words = 1 ∧ w 0 = 0x61C4) ∨ (words = 2 ∧ starts) ∨ (words = 3 ∧ starts ∧ (w 2).toNat ≤ 8) ∨
        (4 ≤ words ∧ starts ∧ (w 2).toNat ≤ 8 ∧ (w 3).toNat ≤ 256 ∧ words < n) →
        exec (.verifyPass ⟨0x50, 0, .bytes bs⟩) s = .next s)

/-- The apply pass (R178, R180 to R182), each transaction at the EEPROM's address and started at the byte address of its first
word, its operand being what the EEPROM answered (log 15). The header: periods as SET_CLASS sets them, masks and types, the
order where it is a permutation and ORDER_ERR otherwise, start flags kept. A region record as a SET_REGION from the primary
port and a point record as a DEFINE; a refused one adds 1 to LOAD_REJECTS, sets LOAD_PARTIAL and changes nothing else. The
checksum: with the sum 0 loading ends and the start flags are applied; a sum that is not 0, or a failed transaction, undoes
the load with LOAD_FAIL (R181; what R181 does not name: log 23). Each transaction's words are added into the sum, and bytes
beyond them are not read. -/
def Obligations.ApplyPassLoadsTheImage : Prop :=
  ∀ (s : State), s.loader.state = .apply →
    let l := s.loader
    let stands := fun (x y : Nat) => l.headerDone = true ∧ l.regionsDone = x ∧ l.pointsDone = y
    let from_ := fun (word : Nat) (r : EepromAnswer) => EepromRead.mk 0x50 (BitVec.ofNat 16 (2 * word)) r
    let regionAt := fun k => 12 + 6 * k
    let pointAt := fun k => 12 + 6 * l.regions + 14 * k
    let undone := fun (i : Instr) => ∃ t, exec i s = .next t ∧ s.LoadUndone t
    (∀ bs : List Byte,
      let w := fun i => (wordsOf bs).getD i 0
      let sum := fun k => l.sum + ((wordsOf bs).take k).sum
      let entries := [nibble (w 10) 0, nibble (w 10) 1, nibble (w 10) 2, nibble (w 10) 3,
        nibble (w 11) 0, nibble (w 11) 1, nibble (w 11) 2, nibble (w 11) 3]
      (l.headerDone = false → 24 ≤ bs.length →
        ∃ t, exec (.loadHeader (from_ 0 (.bytes bs))) s = .next t ∧
          (∀ c : ClassNo, t.classState c = { s.classState c with
            period := w (5 + c.val), remaining := w (5 + c.val), overrunCount := 0 }) ∧
          t.notify.mask = loByte (w 9) ∧ t.notify.type = hiByte (w 9) ∧
          ((∀ u, u < 8 → entries.count u = 1) →
            t.notify.order.toList.map (·.val) = entries ∧ t.notify.orderErr = s.notify.orderErr) ∧
          (¬ (∀ u, u < 8 → entries.count u = 1) →
            t.notify.order = #v[0, 1, 2, 3, 4, 5, 6, 7] ∧ t.notify.orderErr = true) ∧
          t.loader = { l with
            headerDone := true, startScanRun := flag (w 4) 0, startNotifyEn := flag (w 4) 1, sum := sum 12 } ∧
          t = { s with scan := { s.scan with classes := t.scan.classes }, loader := t.loader, notify := { s.notify with
            mask := t.notify.mask, type := t.notify.type, order := t.notify.order, orderErr := t.notify.orderErr } }) ∧
      (∀ k, k < l.regions → stands k 0 → 12 ≤ bs.length →
        let g := Region.ofWords w
        let refused := 8 ≤ (loByte (w 0)).toNat ∨ ¬ g.Valid
        (refused → exec (.loadRegionRecord (from_ (regionAt k) (.bytes bs))) s = .next { s with loader := { l with
          regionsDone := k + 1, sum := sum 6, rejects := l.rejects + 1, partialLoad := true } }) ∧
        ∀ r : RegionNo, r.val = (loByte (w 0)).toNat → g.Valid →
          ∃ t, exec (.loadRegionRecord (from_ (regionAt k) (.bytes bs))) s = .next t ∧ t.region r = g ∧
            (∀ x, x ≠ r → t.region x = s.region x) ∧
            t = { s with
              bus := { s.bus with regions := t.bus.regions }
              loader := { l with regionsDone := k + 1, sum := sum 6 } }) ∧
      (∀ k, k < l.points → stands l.regions k → 28 ≤ bs.length →
        let n : PointNo := (loByte (w 0)).toFin
        let raw := RawDef.ofWords fun i => w (i + 1)
        ((s.point n).state ≠ .free ∨ (∃ code, s.checkDefinition raw none 0 = .error code) →
          exec (.loadPointRecord (from_ (pointAt k) (.bytes bs))) s = .next { s with loader := { l with
            pointsDone := k + 1, sum := sum 14, rejects := l.rejects + 1, partialLoad := true } }) ∧
        ∀ d, (s.point n).state = .free → s.checkDefinition raw none 0 = .ok d →
          exec (.loadPointRecord (from_ (pointAt k) (.bytes bs))) s = .next { s.defineCore n d with
            loader := { l with pointsDone := k + 1, sum := sum 14 } }) ∧
      (stands l.regions l.points → 2 ≤ bs.length →
        (sum 1 = 0 → s.LoadingQuiet → exec (.loadChecksum (from_ (pointAt l.points) (.bytes bs))) s = .next { s with
          lastTaken := .scan, loader := { l with state := .done, sum := 0 }
          scan := { s.scan with run := l.startScanRun }, notify := { s.notify with notifyEn := l.startNotifyEn } }) ∧
        (sum 1 ≠ 0 → undone (.loadChecksum (from_ (pointAt l.points) (.bytes bs)))))) ∧
    (l.headerDone = false → undone (.loadHeader (from_ 0 .failed))) ∧
    (∀ k, k < l.regions → stands k 0 → undone (.loadRegionRecord (from_ (regionAt k) .failed))) ∧
    (∀ k, k < l.points → stands l.regions k → undone (.loadPointRecord (from_ (pointAt k) .failed))) ∧
    (stands l.regions l.points → undone (.loadChecksum (from_ (pointAt l.points) .failed)))
end
end

