-- ==== Sys2Proof/Laws/Bits.lean ====
section
/-! SUPPORT. What the array helpers and the ascending insert do. -/

namespace Sys2Proof.Machine

@[simp] theorem getElem_tabulate {α : Type} (n : Nat) (f : Nat → α) (i : Nat) (h : i < n) :
    (tabulate n f)[i] = f i := by simp [tabulate]

@[simp] theorem getElem_mapAll {α β : Type} {n : Nat} (f : α → β) (v : Vector α n) (i : Nat) (h : i < n) :
    (mapAll f v)[i] = f v[i] := by simp [mapAll]

@[simp] theorem longOf_hi_lo (v : Long) : longOf (hiWord v) (loWord v) = v := by
  ext i hi
  simp [longOf, hiWord, loWord]
  by_cases h : i < 16
  · simp [h, BitVec.getLsbD_eq_getElem hi]
  · simp [h, show 16 + (i - 16) = i by omega, show i - 16 < 16 by omega, BitVec.getLsbD_eq_getElem hi]

@[simp] theorem hiWord_longOf (h l : Word) : hiWord (longOf h l) = h := by
  ext i hi
  simp [longOf, hiWord, hi, show 16 + i < 32 by omega]

@[simp] theorem loWord_longOf (h l : Word) : loWord (longOf h l) = l := by
  ext i hi
  simp [longOf, loWord, hi, show i < 32 by omega]

@[simp] theorem wordOf_hi_lo (w : Word) : wordOf (hiByte w) (loByte w) = w := by
  ext i hi
  simp [wordOf, hiByte, loByte]
  by_cases h : i < 8
  · simp [h, BitVec.getLsbD_eq_getElem hi]
  · simp [h, show 8 + (i - 8) = i by omega, show i - 8 < 8 by omega, BitVec.getLsbD_eq_getElem hi]

@[simp] theorem hiByte_wordOf (h l : Byte) : hiByte (wordOf h l) = h := by
  ext i hi
  simp [wordOf, hiByte, hi, show 8 + i < 16 by omega]

@[simp] theorem loByte_wordOf (h l : Byte) : loByte (wordOf h l) = l := by
  ext i hi
  simp [wordOf, loByte, hi, show i < 16 by omega]

@[simp] theorem mem_insertAsc {n : Nat} (x y : Fin n) (l : List (Fin n)) :
    y ∈ insertAsc x l ↔ y = x ∨ y ∈ l := by
  induction l with
  | nil => simp [insertAsc]
  | cons z zs ih =>
    unfold insertAsc
    split
    · simp
    · split
      · next h => subst h; simp
      · simp only [List.mem_cons, ih]; tauto

theorem pairwise_insertAsc {n : Nat} (x : Fin n) {l : List (Fin n)} (h : l.Pairwise (· < ·)) :
    (insertAsc x l).Pairwise (· < ·) := by
  induction l with
  | nil => simp [insertAsc]
  | cons z zs ih =>
    have hz := List.pairwise_cons.mp h
    unfold insertAsc
    split
    · next hlt => exact List.pairwise_cons.mpr ⟨fun y hy => by
        rcases List.mem_cons.mp hy with rfl | hy
        · exact hlt
        · exact lt_trans hlt (hz.1 y hy), h⟩
    · split
      · exact h
      · next hlt hne =>
        refine List.pairwise_cons.mpr ⟨fun y hy => ?_, ih hz.2⟩
        rcases (mem_insertAsc x y zs).mp hy with rfl | hy
        · exact lt_of_le_of_ne (not_lt.mp hlt) (Ne.symm hne)
        · exact hz.1 y hy

/-- A number not yet in the list makes it one longer (R102: "the free count rises by 1"). -/
theorem length_insertAsc {n : Nat} (x : Fin n) {l : List (Fin n)} (h : x ∉ l) :
    (insertAsc x l).length = l.length + 1 := by
  induction l with
  | nil => simp [insertAsc]
  | cons z zs ih =>
    simp only [List.mem_cons, not_or] at h
    unfold insertAsc
    split
    · simp
    · simp [h.1, ih h.2]

end Sys2Proof.Machine
end

