-- ==== Sys2Proof/Laws/State.lean ====
section
/-! SUPPORT. One line per field per update of State: what each named update leaves as it was, and what it writes. -/

namespace Sys2Proof.Machine.State

variable (s : State)

@[simp] theorem setPoint_keeps (p : PointNo) (x : Point) :
    (s.setPoint p x).chains = s.chains ∧
    (s.setPoint p x).freeSegs = s.freeSegs ∧
    (s.setPoint p x).segWords = s.segWords ∧
    (s.setPoint p x).lastTaken = s.lastTaken ∧
    (s.setPoint p x).primary = s.primary ∧
    (s.setPoint p x).maint = s.maint ∧
    (s.setPoint p x).spi = s.spi ∧
    (s.setPoint p x).sdo = s.sdo ∧
    (s.setPoint p x).pointer = s.pointer ∧
    (s.setPoint p x).i2cAddr = s.i2cAddr ∧
    (s.setPoint p x).i2cWriteOpen = s.i2cWriteOpen ∧
    (s.setPoint p x).scan = s.scan ∧
    (s.setPoint p x).bus = s.bus ∧
    (s.setPoint p x).backAsserted = s.backAsserted ∧
    (s.setPoint p x).lines = s.lines ∧
    (s.setPoint p x).notify = s.notify ∧
    (s.setPoint p x).loader = s.loader ∧
    (s.setPoint p x).timebase = s.timebase ∧
    (s.setPoint p x).pending = s.pending ∧
    (∀ o : Port, (s.setPoint p x).port o = s.port o) ∧
    (∀ o : Port, (s.setPoint p x).slot o = s.slot o) ∧
    (∀ o : Port, (s.setPoint p x).busyWith o = s.busyWith o) ∧
    (∀ c : ClassNo, (s.setPoint p x).classState c = s.classState c) ∧
    (∀ r : RegionNo, (s.setPoint p x).region r = s.region r) ∧
    (∀ c : ClassSel, (s.setPoint p x).chain c = s.chain c) ∧
    (∀ r : Requester, (s.setPoint p x).entry r = s.entry r) ∧
    (∀ l : LineNo, (s.setPoint p x).line l = s.line l) ∧
    (∀ r : RegionNo, (s.setPoint p x).pendingFlag r = s.pendingFlag r) ∧
    (∀ v : Level, (s.setPoint p x).noticeSet v = s.noticeSet v) ∧
    (∀ v : Level, (s.setPoint p x).isOpen v = s.isOpen v) ∧
    (s.setPoint p x).loading = s.loading :=
  ⟨rfl, rfl, rfl, rfl, rfl, rfl, rfl, rfl, rfl, rfl, rfl, rfl, rfl, rfl, rfl, rfl, rfl, rfl, rfl, fun _ => rfl, fun _ => rfl, fun _ => rfl, fun _ => rfl, fun _ => rfl, fun _ => rfl, fun _ => rfl, fun _ => rfl, fun _ => rfl, fun _ => rfl, fun _ => rfl, rfl⟩

@[simp] theorem setNext_keeps (p : PointNo) (n : Option PointNo) :
    (s.setNext p n).chains = s.chains ∧
    (s.setNext p n).freeSegs = s.freeSegs ∧
    (s.setNext p n).segWords = s.segWords ∧
    (s.setNext p n).lastTaken = s.lastTaken ∧
    (s.setNext p n).primary = s.primary ∧
    (s.setNext p n).maint = s.maint ∧
    (s.setNext p n).spi = s.spi ∧
    (s.setNext p n).sdo = s.sdo ∧
    (s.setNext p n).pointer = s.pointer ∧
    (s.setNext p n).i2cAddr = s.i2cAddr ∧
    (s.setNext p n).i2cWriteOpen = s.i2cWriteOpen ∧
    (s.setNext p n).scan = s.scan ∧
    (s.setNext p n).bus = s.bus ∧
    (s.setNext p n).backAsserted = s.backAsserted ∧
    (s.setNext p n).lines = s.lines ∧
    (s.setNext p n).notify = s.notify ∧
    (s.setNext p n).loader = s.loader ∧
    (s.setNext p n).timebase = s.timebase ∧
    (s.setNext p n).pending = s.pending ∧
    (∀ o : Port, (s.setNext p n).port o = s.port o) ∧
    (∀ o : Port, (s.setNext p n).slot o = s.slot o) ∧
    (∀ o : Port, (s.setNext p n).busyWith o = s.busyWith o) ∧
    (∀ c : ClassNo, (s.setNext p n).classState c = s.classState c) ∧
    (∀ r : RegionNo, (s.setNext p n).region r = s.region r) ∧
    (∀ c : ClassSel, (s.setNext p n).chain c = s.chain c) ∧
    (∀ r : Requester, (s.setNext p n).entry r = s.entry r) ∧
    (∀ l : LineNo, (s.setNext p n).line l = s.line l) ∧
    (∀ r : RegionNo, (s.setNext p n).pendingFlag r = s.pendingFlag r) ∧
    (∀ v : Level, (s.setNext p n).noticeSet v = s.noticeSet v) ∧
    (∀ v : Level, (s.setNext p n).isOpen v = s.isOpen v) ∧
    (s.setNext p n).loading = s.loading :=
  ⟨rfl, rfl, rfl, rfl, rfl, rfl, rfl, rfl, rfl, rfl, rfl, rfl, rfl, rfl, rfl, rfl, rfl, rfl, rfl, fun _ => rfl, fun _ => rfl, fun _ => rfl, fun _ => rfl, fun _ => rfl, fun _ => rfl, fun _ => rfl, fun _ => rfl, fun _ => rfl, fun _ => rfl, fun _ => rfl, rfl⟩

@[simp] theorem setClassState_keeps (k : ClassNo) (x : ClassState) :
    (s.setClassState k x).points = s.points ∧
    (s.setClassState k x).chains = s.chains ∧
    (s.setClassState k x).freeSegs = s.freeSegs ∧
    (s.setClassState k x).segWords = s.segWords ∧
    (s.setClassState k x).lastTaken = s.lastTaken ∧
    (s.setClassState k x).primary = s.primary ∧
    (s.setClassState k x).maint = s.maint ∧
    (s.setClassState k x).spi = s.spi ∧
    (s.setClassState k x).sdo = s.sdo ∧
    (s.setClassState k x).pointer = s.pointer ∧
    (s.setClassState k x).i2cAddr = s.i2cAddr ∧
    (s.setClassState k x).i2cWriteOpen = s.i2cWriteOpen ∧
    (s.setClassState k x).bus = s.bus ∧
    (s.setClassState k x).backAsserted = s.backAsserted ∧
    (s.setClassState k x).lines = s.lines ∧
    (s.setClassState k x).notify = s.notify ∧
    (s.setClassState k x).loader = s.loader ∧
    (s.setClassState k x).timebase = s.timebase ∧
    (s.setClassState k x).pending = s.pending ∧
    (∀ q : PointNo, (s.setClassState k x).point q = s.point q) ∧
    (∀ o : Port, (s.setClassState k x).port o = s.port o) ∧
    (∀ o : Port, (s.setClassState k x).slot o = s.slot o) ∧
    (∀ o : Port, (s.setClassState k x).busyWith o = s.busyWith o) ∧
    (∀ r : RegionNo, (s.setClassState k x).region r = s.region r) ∧
    (∀ c : ClassSel, (s.setClassState k x).chain c = s.chain c) ∧
    (∀ r : Requester, (s.setClassState k x).entry r = s.entry r) ∧
    (∀ l : LineNo, (s.setClassState k x).line l = s.line l) ∧
    (∀ v : Level, (s.setClassState k x).noticeSet v = s.noticeSet v) ∧
    (∀ v : Level, (s.setClassState k x).isOpen v = s.isOpen v) ∧
    (s.setClassState k x).loading = s.loading :=
  ⟨rfl, rfl, rfl, rfl, rfl, rfl, rfl, rfl, rfl, rfl, rfl, rfl, rfl, rfl, rfl, rfl, rfl, rfl, rfl, fun _ => rfl, fun _ => rfl, fun _ => rfl, fun _ => rfl, fun _ => rfl, fun _ => rfl, fun _ => rfl, fun _ => rfl, fun _ => rfl, fun _ => rfl, rfl⟩

@[simp] theorem setPendingFlag_keeps (k : RegionNo) (b : Bool) :
    (s.setPendingFlag k b).points = s.points ∧
    (s.setPendingFlag k b).chains = s.chains ∧
    (s.setPendingFlag k b).freeSegs = s.freeSegs ∧
    (s.setPendingFlag k b).segWords = s.segWords ∧
    (s.setPendingFlag k b).lastTaken = s.lastTaken ∧
    (s.setPendingFlag k b).primary = s.primary ∧
    (s.setPendingFlag k b).maint = s.maint ∧
    (s.setPendingFlag k b).spi = s.spi ∧
    (s.setPendingFlag k b).sdo = s.sdo ∧
    (s.setPendingFlag k b).pointer = s.pointer ∧
    (s.setPendingFlag k b).i2cAddr = s.i2cAddr ∧
    (s.setPendingFlag k b).i2cWriteOpen = s.i2cWriteOpen ∧
    (s.setPendingFlag k b).bus = s.bus ∧
    (s.setPendingFlag k b).backAsserted = s.backAsserted ∧
    (s.setPendingFlag k b).lines = s.lines ∧
    (s.setPendingFlag k b).notify = s.notify ∧
    (s.setPendingFlag k b).loader = s.loader ∧
    (s.setPendingFlag k b).timebase = s.timebase ∧
    (s.setPendingFlag k b).pending = s.pending ∧
    (∀ q : PointNo, (s.setPendingFlag k b).point q = s.point q) ∧
    (∀ o : Port, (s.setPendingFlag k b).port o = s.port o) ∧
    (∀ o : Port, (s.setPendingFlag k b).slot o = s.slot o) ∧
    (∀ o : Port, (s.setPendingFlag k b).busyWith o = s.busyWith o) ∧
    (∀ r : RegionNo, (s.setPendingFlag k b).region r = s.region r) ∧
    (∀ c : ClassSel, (s.setPendingFlag k b).chain c = s.chain c) ∧
    (∀ r : Requester, (s.setPendingFlag k b).entry r = s.entry r) ∧
    (∀ l : LineNo, (s.setPendingFlag k b).line l = s.line l) ∧
    (∀ v : Level, (s.setPendingFlag k b).noticeSet v = s.noticeSet v) ∧
    (∀ v : Level, (s.setPendingFlag k b).isOpen v = s.isOpen v) ∧
    (s.setPendingFlag k b).loading = s.loading :=
  ⟨rfl, rfl, rfl, rfl, rfl, rfl, rfl, rfl, rfl, rfl, rfl, rfl, rfl, rfl, rfl, rfl, rfl, rfl, rfl, fun _ => rfl, fun _ => rfl, fun _ => rfl, fun _ => rfl, fun _ => rfl, fun _ => rfl, fun _ => rfl, fun _ => rfl, fun _ => rfl, fun _ => rfl, rfl⟩

@[simp] theorem scanFree_keeps :
    (s.scanFree).points = s.points ∧
    (s.scanFree).chains = s.chains ∧
    (s.scanFree).freeSegs = s.freeSegs ∧
    (s.scanFree).segWords = s.segWords ∧
    (s.scanFree).lastTaken = s.lastTaken ∧
    (s.scanFree).primary = s.primary ∧
    (s.scanFree).maint = s.maint ∧
    (s.scanFree).spi = s.spi ∧
    (s.scanFree).sdo = s.sdo ∧
    (s.scanFree).pointer = s.pointer ∧
    (s.scanFree).i2cAddr = s.i2cAddr ∧
    (s.scanFree).i2cWriteOpen = s.i2cWriteOpen ∧
    (s.scanFree).bus = s.bus ∧
    (s.scanFree).backAsserted = s.backAsserted ∧
    (s.scanFree).lines = s.lines ∧
    (s.scanFree).notify = s.notify ∧
    (s.scanFree).loader = s.loader ∧
    (s.scanFree).timebase = s.timebase ∧
    (s.scanFree).pending = s.pending ∧
    (∀ q : PointNo, (s.scanFree).point q = s.point q) ∧
    (∀ o : Port, (s.scanFree).port o = s.port o) ∧
    (∀ o : Port, (s.scanFree).slot o = s.slot o) ∧
    (∀ o : Port, (s.scanFree).busyWith o = s.busyWith o) ∧
    (∀ r : RegionNo, (s.scanFree).region r = s.region r) ∧
    (∀ c : ClassSel, (s.scanFree).chain c = s.chain c) ∧
    (∀ r : Requester, (s.scanFree).entry r = s.entry r) ∧
    (∀ l : LineNo, (s.scanFree).line l = s.line l) ∧
    (∀ v : Level, (s.scanFree).noticeSet v = s.noticeSet v) ∧
    (∀ v : Level, (s.scanFree).isOpen v = s.isOpen v) ∧
    (s.scanFree).loading = s.loading :=
  ⟨rfl, rfl, rfl, rfl, rfl, rfl, rfl, rfl, rfl, rfl, rfl, rfl, rfl, rfl, rfl, rfl, rfl, rfl, rfl, fun _ => rfl, fun _ => rfl, fun _ => rfl, fun _ => rfl, fun _ => rfl, fun _ => rfl, fun _ => rfl, fun _ => rfl, fun _ => rfl, fun _ => rfl, rfl⟩

@[simp] theorem placeVisit_keeps (w : ScanWork) :
    (s.placeVisit w).points = s.points ∧
    (s.placeVisit w).chains = s.chains ∧
    (s.placeVisit w).freeSegs = s.freeSegs ∧
    (s.placeVisit w).segWords = s.segWords ∧
    (s.placeVisit w).lastTaken = s.lastTaken ∧
    (s.placeVisit w).primary = s.primary ∧
    (s.placeVisit w).maint = s.maint ∧
    (s.placeVisit w).spi = s.spi ∧
    (s.placeVisit w).sdo = s.sdo ∧
    (s.placeVisit w).pointer = s.pointer ∧
    (s.placeVisit w).i2cAddr = s.i2cAddr ∧
    (s.placeVisit w).i2cWriteOpen = s.i2cWriteOpen ∧
    (s.placeVisit w).bus = s.bus ∧
    (s.placeVisit w).backAsserted = s.backAsserted ∧
    (s.placeVisit w).lines = s.lines ∧
    (s.placeVisit w).notify = s.notify ∧
    (s.placeVisit w).loader = s.loader ∧
    (s.placeVisit w).timebase = s.timebase ∧
    (s.placeVisit w).pending = s.pending ∧
    (∀ q : PointNo, (s.placeVisit w).point q = s.point q) ∧
    (∀ o : Port, (s.placeVisit w).port o = s.port o) ∧
    (∀ o : Port, (s.placeVisit w).slot o = s.slot o) ∧
    (∀ o : Port, (s.placeVisit w).busyWith o = s.busyWith o) ∧
    (∀ r : RegionNo, (s.placeVisit w).region r = s.region r) ∧
    (∀ c : ClassSel, (s.placeVisit w).chain c = s.chain c) ∧
    (∀ r : Requester, (s.placeVisit w).entry r = s.entry r) ∧
    (∀ l : LineNo, (s.placeVisit w).line l = s.line l) ∧
    (∀ v : Level, (s.placeVisit w).noticeSet v = s.noticeSet v) ∧
    (∀ v : Level, (s.placeVisit w).isOpen v = s.isOpen v) ∧
    (s.placeVisit w).loading = s.loading :=
  ⟨rfl, rfl, rfl, rfl, rfl, rfl, rfl, rfl, rfl, rfl, rfl, rfl, rfl, rfl, rfl, rfl, rfl, rfl, rfl, fun _ => rfl, fun _ => rfl, fun _ => rfl, fun _ => rfl, fun _ => rfl, fun _ => rfl, fun _ => rfl, fun _ => rfl, fun _ => rfl, fun _ => rfl, rfl⟩

@[simp] theorem endWork_keeps :
    (s.endWork).points = s.points ∧
    (s.endWork).chains = s.chains ∧
    (s.endWork).freeSegs = s.freeSegs ∧
    (s.endWork).segWords = s.segWords ∧
    (s.endWork).lastTaken = s.lastTaken ∧
    (s.endWork).primary = s.primary ∧
    (s.endWork).maint = s.maint ∧
    (s.endWork).spi = s.spi ∧
    (s.endWork).sdo = s.sdo ∧
    (s.endWork).pointer = s.pointer ∧
    (s.endWork).i2cAddr = s.i2cAddr ∧
    (s.endWork).i2cWriteOpen = s.i2cWriteOpen ∧
    (s.endWork).bus = s.bus ∧
    (s.endWork).backAsserted = s.backAsserted ∧
    (s.endWork).lines = s.lines ∧
    (s.endWork).notify = s.notify ∧
    (s.endWork).loader = s.loader ∧
    (s.endWork).timebase = s.timebase ∧
    (s.endWork).pending = s.pending ∧
    (∀ q : PointNo, (s.endWork).point q = s.point q) ∧
    (∀ o : Port, (s.endWork).port o = s.port o) ∧
    (∀ o : Port, (s.endWork).slot o = s.slot o) ∧
    (∀ o : Port, (s.endWork).busyWith o = s.busyWith o) ∧
    (∀ r : RegionNo, (s.endWork).region r = s.region r) ∧
    (∀ c : ClassSel, (s.endWork).chain c = s.chain c) ∧
    (∀ r : Requester, (s.endWork).entry r = s.entry r) ∧
    (∀ l : LineNo, (s.endWork).line l = s.line l) ∧
    (∀ v : Level, (s.endWork).noticeSet v = s.noticeSet v) ∧
    (∀ v : Level, (s.endWork).isOpen v = s.isOpen v) ∧
    (s.endWork).loading = s.loading :=
  ⟨rfl, rfl, rfl, rfl, rfl, rfl, rfl, rfl, rfl, rfl, rfl, rfl, rfl, rfl, rfl, rfl, rfl, rfl, rfl, fun _ => rfl, fun _ => rfl, fun _ => rfl, fun _ => rfl, fun _ => rfl, fun _ => rfl, fun _ => rfl, fun _ => rfl, fun _ => rfl, fun _ => rfl, rfl⟩

@[simp] theorem restartClass_keeps (k : ClassNo) (w : Word) :
    (s.restartClass k w).points = s.points ∧
    (s.restartClass k w).chains = s.chains ∧
    (s.restartClass k w).freeSegs = s.freeSegs ∧
    (s.restartClass k w).segWords = s.segWords ∧
    (s.restartClass k w).lastTaken = s.lastTaken ∧
    (s.restartClass k w).primary = s.primary ∧
    (s.restartClass k w).maint = s.maint ∧
    (s.restartClass k w).spi = s.spi ∧
    (s.restartClass k w).sdo = s.sdo ∧
    (s.restartClass k w).pointer = s.pointer ∧
    (s.restartClass k w).i2cAddr = s.i2cAddr ∧
    (s.restartClass k w).i2cWriteOpen = s.i2cWriteOpen ∧
    (s.restartClass k w).bus = s.bus ∧
    (s.restartClass k w).backAsserted = s.backAsserted ∧
    (s.restartClass k w).lines = s.lines ∧
    (s.restartClass k w).notify = s.notify ∧
    (s.restartClass k w).loader = s.loader ∧
    (s.restartClass k w).timebase = s.timebase ∧
    (s.restartClass k w).pending = s.pending ∧
    (∀ q : PointNo, (s.restartClass k w).point q = s.point q) ∧
    (∀ o : Port, (s.restartClass k w).port o = s.port o) ∧
    (∀ o : Port, (s.restartClass k w).slot o = s.slot o) ∧
    (∀ o : Port, (s.restartClass k w).busyWith o = s.busyWith o) ∧
    (∀ r : RegionNo, (s.restartClass k w).region r = s.region r) ∧
    (∀ c : ClassSel, (s.restartClass k w).chain c = s.chain c) ∧
    (∀ r : Requester, (s.restartClass k w).entry r = s.entry r) ∧
    (∀ l : LineNo, (s.restartClass k w).line l = s.line l) ∧
    (∀ v : Level, (s.restartClass k w).noticeSet v = s.noticeSet v) ∧
    (∀ v : Level, (s.restartClass k w).isOpen v = s.isOpen v) ∧
    (s.restartClass k w).loading = s.loading :=
  ⟨rfl, rfl, rfl, rfl, rfl, rfl, rfl, rfl, rfl, rfl, rfl, rfl, rfl, rfl, rfl, rfl, rfl, rfl, rfl, fun _ => rfl, fun _ => rfl, fun _ => rfl, fun _ => rfl, fun _ => rfl, fun _ => rfl, fun _ => rfl, fun _ => rfl, fun _ => rfl, fun _ => rfl, rfl⟩

@[simp] theorem setRegion_keeps (k : RegionNo) (x : Region) :
    (s.setRegion k x).points = s.points ∧
    (s.setRegion k x).chains = s.chains ∧
    (s.setRegion k x).freeSegs = s.freeSegs ∧
    (s.setRegion k x).segWords = s.segWords ∧
    (s.setRegion k x).lastTaken = s.lastTaken ∧
    (s.setRegion k x).primary = s.primary ∧
    (s.setRegion k x).maint = s.maint ∧
    (s.setRegion k x).spi = s.spi ∧
    (s.setRegion k x).sdo = s.sdo ∧
    (s.setRegion k x).pointer = s.pointer ∧
    (s.setRegion k x).i2cAddr = s.i2cAddr ∧
    (s.setRegion k x).i2cWriteOpen = s.i2cWriteOpen ∧
    (s.setRegion k x).scan = s.scan ∧
    (s.setRegion k x).backAsserted = s.backAsserted ∧
    (s.setRegion k x).lines = s.lines ∧
    (s.setRegion k x).notify = s.notify ∧
    (s.setRegion k x).loader = s.loader ∧
    (s.setRegion k x).timebase = s.timebase ∧
    (s.setRegion k x).pending = s.pending ∧
    (∀ q : PointNo, (s.setRegion k x).point q = s.point q) ∧
    (∀ o : Port, (s.setRegion k x).port o = s.port o) ∧
    (∀ o : Port, (s.setRegion k x).slot o = s.slot o) ∧
    (∀ o : Port, (s.setRegion k x).busyWith o = s.busyWith o) ∧
    (∀ c : ClassNo, (s.setRegion k x).classState c = s.classState c) ∧
    (∀ c : ClassSel, (s.setRegion k x).chain c = s.chain c) ∧
    (∀ l : LineNo, (s.setRegion k x).line l = s.line l) ∧
    (∀ r : RegionNo, (s.setRegion k x).pendingFlag r = s.pendingFlag r) ∧
    (∀ v : Level, (s.setRegion k x).noticeSet v = s.noticeSet v) ∧
    (∀ v : Level, (s.setRegion k x).isOpen v = s.isOpen v) ∧
    (s.setRegion k x).loading = s.loading :=
  ⟨rfl, rfl, rfl, rfl, rfl, rfl, rfl, rfl, rfl, rfl, rfl, rfl, rfl, rfl, rfl, rfl, rfl, rfl, rfl, fun _ => rfl, fun _ => rfl, fun _ => rfl, fun _ => rfl, fun _ => rfl, fun _ => rfl, fun _ => rfl, fun _ => rfl, fun _ => rfl, fun _ => rfl, rfl⟩

@[simp] theorem setPhase_keeps (x : BusPhase) :
    (s.setPhase x).points = s.points ∧
    (s.setPhase x).chains = s.chains ∧
    (s.setPhase x).freeSegs = s.freeSegs ∧
    (s.setPhase x).segWords = s.segWords ∧
    (s.setPhase x).lastTaken = s.lastTaken ∧
    (s.setPhase x).primary = s.primary ∧
    (s.setPhase x).maint = s.maint ∧
    (s.setPhase x).spi = s.spi ∧
    (s.setPhase x).sdo = s.sdo ∧
    (s.setPhase x).pointer = s.pointer ∧
    (s.setPhase x).i2cAddr = s.i2cAddr ∧
    (s.setPhase x).i2cWriteOpen = s.i2cWriteOpen ∧
    (s.setPhase x).scan = s.scan ∧
    (s.setPhase x).backAsserted = s.backAsserted ∧
    (s.setPhase x).lines = s.lines ∧
    (s.setPhase x).notify = s.notify ∧
    (s.setPhase x).loader = s.loader ∧
    (s.setPhase x).timebase = s.timebase ∧
    (s.setPhase x).pending = s.pending ∧
    (∀ q : PointNo, (s.setPhase x).point q = s.point q) ∧
    (∀ o : Port, (s.setPhase x).port o = s.port o) ∧
    (∀ o : Port, (s.setPhase x).slot o = s.slot o) ∧
    (∀ o : Port, (s.setPhase x).busyWith o = s.busyWith o) ∧
    (∀ c : ClassNo, (s.setPhase x).classState c = s.classState c) ∧
    (∀ c : ClassSel, (s.setPhase x).chain c = s.chain c) ∧
    (∀ l : LineNo, (s.setPhase x).line l = s.line l) ∧
    (∀ r : RegionNo, (s.setPhase x).pendingFlag r = s.pendingFlag r) ∧
    (∀ v : Level, (s.setPhase x).noticeSet v = s.noticeSet v) ∧
    (∀ v : Level, (s.setPhase x).isOpen v = s.isOpen v) ∧
    (s.setPhase x).loading = s.loading :=
  ⟨rfl, rfl, rfl, rfl, rfl, rfl, rfl, rfl, rfl, rfl, rfl, rfl, rfl, rfl, rfl, rfl, rfl, rfl, rfl, fun _ => rfl, fun _ => rfl, fun _ => rfl, fun _ => rfl, fun _ => rfl, fun _ => rfl, fun _ => rfl, fun _ => rfl, fun _ => rfl, fun _ => rfl, rfl⟩

@[simp] theorem setPins_keeps (x : Pins) :
    (s.setPins x).points = s.points ∧
    (s.setPins x).chains = s.chains ∧
    (s.setPins x).freeSegs = s.freeSegs ∧
    (s.setPins x).segWords = s.segWords ∧
    (s.setPins x).lastTaken = s.lastTaken ∧
    (s.setPins x).primary = s.primary ∧
    (s.setPins x).maint = s.maint ∧
    (s.setPins x).spi = s.spi ∧
    (s.setPins x).sdo = s.sdo ∧
    (s.setPins x).pointer = s.pointer ∧
    (s.setPins x).i2cAddr = s.i2cAddr ∧
    (s.setPins x).i2cWriteOpen = s.i2cWriteOpen ∧
    (s.setPins x).scan = s.scan ∧
    (s.setPins x).backAsserted = s.backAsserted ∧
    (s.setPins x).lines = s.lines ∧
    (s.setPins x).notify = s.notify ∧
    (s.setPins x).loader = s.loader ∧
    (s.setPins x).timebase = s.timebase ∧
    (s.setPins x).pending = s.pending ∧
    (∀ q : PointNo, (s.setPins x).point q = s.point q) ∧
    (∀ o : Port, (s.setPins x).port o = s.port o) ∧
    (∀ o : Port, (s.setPins x).slot o = s.slot o) ∧
    (∀ o : Port, (s.setPins x).busyWith o = s.busyWith o) ∧
    (∀ c : ClassNo, (s.setPins x).classState c = s.classState c) ∧
    (∀ c : ClassSel, (s.setPins x).chain c = s.chain c) ∧
    (∀ l : LineNo, (s.setPins x).line l = s.line l) ∧
    (∀ r : RegionNo, (s.setPins x).pendingFlag r = s.pendingFlag r) ∧
    (∀ v : Level, (s.setPins x).noticeSet v = s.noticeSet v) ∧
    (∀ v : Level, (s.setPins x).isOpen v = s.isOpen v) ∧
    (s.setPins x).loading = s.loading :=
  ⟨rfl, rfl, rfl, rfl, rfl, rfl, rfl, rfl, rfl, rfl, rfl, rfl, rfl, rfl, rfl, rfl, rfl, rfl, rfl, fun _ => rfl, fun _ => rfl, fun _ => rfl, fun _ => rfl, fun _ => rfl, fun _ => rfl, fun _ => rfl, fun _ => rfl, fun _ => rfl, fun _ => rfl, rfl⟩

@[simp] theorem setEntry_keeps (k : Requester) (x : Option Request) :
    (s.setEntry k x).points = s.points ∧
    (s.setEntry k x).chains = s.chains ∧
    (s.setEntry k x).freeSegs = s.freeSegs ∧
    (s.setEntry k x).segWords = s.segWords ∧
    (s.setEntry k x).lastTaken = s.lastTaken ∧
    (s.setEntry k x).primary = s.primary ∧
    (s.setEntry k x).maint = s.maint ∧
    (s.setEntry k x).spi = s.spi ∧
    (s.setEntry k x).sdo = s.sdo ∧
    (s.setEntry k x).pointer = s.pointer ∧
    (s.setEntry k x).i2cAddr = s.i2cAddr ∧
    (s.setEntry k x).i2cWriteOpen = s.i2cWriteOpen ∧
    (s.setEntry k x).scan = s.scan ∧
    (s.setEntry k x).backAsserted = s.backAsserted ∧
    (s.setEntry k x).lines = s.lines ∧
    (s.setEntry k x).notify = s.notify ∧
    (s.setEntry k x).loader = s.loader ∧
    (s.setEntry k x).timebase = s.timebase ∧
    (s.setEntry k x).pending = s.pending ∧
    (∀ q : PointNo, (s.setEntry k x).point q = s.point q) ∧
    (∀ o : Port, (s.setEntry k x).port o = s.port o) ∧
    (∀ o : Port, (s.setEntry k x).slot o = s.slot o) ∧
    (∀ o : Port, (s.setEntry k x).busyWith o = s.busyWith o) ∧
    (∀ c : ClassNo, (s.setEntry k x).classState c = s.classState c) ∧
    (∀ c : ClassSel, (s.setEntry k x).chain c = s.chain c) ∧
    (∀ l : LineNo, (s.setEntry k x).line l = s.line l) ∧
    (∀ r : RegionNo, (s.setEntry k x).pendingFlag r = s.pendingFlag r) ∧
    (∀ v : Level, (s.setEntry k x).noticeSet v = s.noticeSet v) ∧
    (∀ v : Level, (s.setEntry k x).isOpen v = s.isOpen v) ∧
    (s.setEntry k x).loading = s.loading := by
  rcases k with _ | (_ | _) <;> exact ⟨rfl, rfl, rfl, rfl, rfl, rfl, rfl, rfl, rfl, rfl, rfl, rfl, rfl, rfl, rfl, rfl, rfl, rfl, rfl, fun _ => rfl, fun _ => rfl, fun _ => rfl, fun _ => rfl, fun _ => rfl, fun _ => rfl, fun _ => rfl, fun _ => rfl, fun _ => rfl, fun _ => rfl, rfl⟩

@[simp] theorem setChain_keeps (k : ClassSel) (x : Chain) :
    (s.setChain k x).points = s.points ∧
    (s.setChain k x).freeSegs = s.freeSegs ∧
    (s.setChain k x).segWords = s.segWords ∧
    (s.setChain k x).lastTaken = s.lastTaken ∧
    (s.setChain k x).primary = s.primary ∧
    (s.setChain k x).maint = s.maint ∧
    (s.setChain k x).spi = s.spi ∧
    (s.setChain k x).sdo = s.sdo ∧
    (s.setChain k x).pointer = s.pointer ∧
    (s.setChain k x).i2cAddr = s.i2cAddr ∧
    (s.setChain k x).i2cWriteOpen = s.i2cWriteOpen ∧
    (s.setChain k x).scan = s.scan ∧
    (s.setChain k x).bus = s.bus ∧
    (s.setChain k x).backAsserted = s.backAsserted ∧
    (s.setChain k x).lines = s.lines ∧
    (s.setChain k x).notify = s.notify ∧
    (s.setChain k x).loader = s.loader ∧
    (s.setChain k x).timebase = s.timebase ∧
    (s.setChain k x).pending = s.pending ∧
    (∀ q : PointNo, (s.setChain k x).point q = s.point q) ∧
    (∀ o : Port, (s.setChain k x).port o = s.port o) ∧
    (∀ o : Port, (s.setChain k x).slot o = s.slot o) ∧
    (∀ o : Port, (s.setChain k x).busyWith o = s.busyWith o) ∧
    (∀ c : ClassNo, (s.setChain k x).classState c = s.classState c) ∧
    (∀ r : RegionNo, (s.setChain k x).region r = s.region r) ∧
    (∀ r : Requester, (s.setChain k x).entry r = s.entry r) ∧
    (∀ l : LineNo, (s.setChain k x).line l = s.line l) ∧
    (∀ r : RegionNo, (s.setChain k x).pendingFlag r = s.pendingFlag r) ∧
    (∀ v : Level, (s.setChain k x).noticeSet v = s.noticeSet v) ∧
    (∀ v : Level, (s.setChain k x).isOpen v = s.isOpen v) ∧
    (s.setChain k x).loading = s.loading :=
  ⟨rfl, rfl, rfl, rfl, rfl, rfl, rfl, rfl, rfl, rfl, rfl, rfl, rfl, rfl, rfl, rfl, rfl, rfl, rfl, fun _ => rfl, fun _ => rfl, fun _ => rfl, fun _ => rfl, fun _ => rfl, fun _ => rfl, fun _ => rfl, fun _ => rfl, fun _ => rfl, fun _ => rfl, fun _ => rfl, rfl⟩

@[simp] theorem setLine_keeps (k : LineNo) (x : Line) :
    (s.setLine k x).points = s.points ∧
    (s.setLine k x).chains = s.chains ∧
    (s.setLine k x).freeSegs = s.freeSegs ∧
    (s.setLine k x).segWords = s.segWords ∧
    (s.setLine k x).lastTaken = s.lastTaken ∧
    (s.setLine k x).primary = s.primary ∧
    (s.setLine k x).maint = s.maint ∧
    (s.setLine k x).spi = s.spi ∧
    (s.setLine k x).sdo = s.sdo ∧
    (s.setLine k x).pointer = s.pointer ∧
    (s.setLine k x).i2cAddr = s.i2cAddr ∧
    (s.setLine k x).i2cWriteOpen = s.i2cWriteOpen ∧
    (s.setLine k x).scan = s.scan ∧
    (s.setLine k x).bus = s.bus ∧
    (s.setLine k x).backAsserted = s.backAsserted ∧
    (s.setLine k x).notify = s.notify ∧
    (s.setLine k x).loader = s.loader ∧
    (s.setLine k x).timebase = s.timebase ∧
    (s.setLine k x).pending = s.pending ∧
    (∀ q : PointNo, (s.setLine k x).point q = s.point q) ∧
    (∀ o : Port, (s.setLine k x).port o = s.port o) ∧
    (∀ o : Port, (s.setLine k x).slot o = s.slot o) ∧
    (∀ o : Port, (s.setLine k x).busyWith o = s.busyWith o) ∧
    (∀ c : ClassNo, (s.setLine k x).classState c = s.classState c) ∧
    (∀ r : RegionNo, (s.setLine k x).region r = s.region r) ∧
    (∀ c : ClassSel, (s.setLine k x).chain c = s.chain c) ∧
    (∀ r : Requester, (s.setLine k x).entry r = s.entry r) ∧
    (∀ r : RegionNo, (s.setLine k x).pendingFlag r = s.pendingFlag r) ∧
    (∀ v : Level, (s.setLine k x).noticeSet v = s.noticeSet v) ∧
    (∀ v : Level, (s.setLine k x).isOpen v = s.isOpen v) ∧
    (s.setLine k x).loading = s.loading :=
  ⟨rfl, rfl, rfl, rfl, rfl, rfl, rfl, rfl, rfl, rfl, rfl, rfl, rfl, rfl, rfl, rfl, rfl, rfl, rfl, fun _ => rfl, fun _ => rfl, fun _ => rfl, fun _ => rfl, fun _ => rfl, fun _ => rfl, fun _ => rfl, fun _ => rfl, fun _ => rfl, fun _ => rfl, fun _ => rfl, rfl⟩

@[simp] theorem setNotice_keeps (k : Level) (x : List PointNo) :
    (s.setNotice k x).points = s.points ∧
    (s.setNotice k x).chains = s.chains ∧
    (s.setNotice k x).freeSegs = s.freeSegs ∧
    (s.setNotice k x).segWords = s.segWords ∧
    (s.setNotice k x).lastTaken = s.lastTaken ∧
    (s.setNotice k x).primary = s.primary ∧
    (s.setNotice k x).maint = s.maint ∧
    (s.setNotice k x).spi = s.spi ∧
    (s.setNotice k x).sdo = s.sdo ∧
    (s.setNotice k x).pointer = s.pointer ∧
    (s.setNotice k x).i2cAddr = s.i2cAddr ∧
    (s.setNotice k x).i2cWriteOpen = s.i2cWriteOpen ∧
    (s.setNotice k x).scan = s.scan ∧
    (s.setNotice k x).bus = s.bus ∧
    (s.setNotice k x).backAsserted = s.backAsserted ∧
    (s.setNotice k x).lines = s.lines ∧
    (s.setNotice k x).loader = s.loader ∧
    (s.setNotice k x).timebase = s.timebase ∧
    (s.setNotice k x).pending = s.pending ∧
    (∀ q : PointNo, (s.setNotice k x).point q = s.point q) ∧
    (∀ o : Port, (s.setNotice k x).port o = s.port o) ∧
    (∀ o : Port, (s.setNotice k x).slot o = s.slot o) ∧
    (∀ o : Port, (s.setNotice k x).busyWith o = s.busyWith o) ∧
    (∀ c : ClassNo, (s.setNotice k x).classState c = s.classState c) ∧
    (∀ r : RegionNo, (s.setNotice k x).region r = s.region r) ∧
    (∀ c : ClassSel, (s.setNotice k x).chain c = s.chain c) ∧
    (∀ r : Requester, (s.setNotice k x).entry r = s.entry r) ∧
    (∀ l : LineNo, (s.setNotice k x).line l = s.line l) ∧
    (∀ r : RegionNo, (s.setNotice k x).pendingFlag r = s.pendingFlag r) ∧
    (s.setNotice k x).loading = s.loading :=
  ⟨rfl, rfl, rfl, rfl, rfl, rfl, rfl, rfl, rfl, rfl, rfl, rfl, rfl, rfl, rfl, rfl, rfl, rfl, rfl, fun _ => rfl, fun _ => rfl, fun _ => rfl, fun _ => rfl, fun _ => rfl, fun _ => rfl, fun _ => rfl, fun _ => rfl, fun _ => rfl, fun _ => rfl, rfl⟩

@[simp] theorem enterNotice_keeps (k : Level) (p : PointNo) :
    (s.enterNotice k p).points = s.points ∧
    (s.enterNotice k p).chains = s.chains ∧
    (s.enterNotice k p).freeSegs = s.freeSegs ∧
    (s.enterNotice k p).segWords = s.segWords ∧
    (s.enterNotice k p).lastTaken = s.lastTaken ∧
    (s.enterNotice k p).primary = s.primary ∧
    (s.enterNotice k p).maint = s.maint ∧
    (s.enterNotice k p).spi = s.spi ∧
    (s.enterNotice k p).sdo = s.sdo ∧
    (s.enterNotice k p).pointer = s.pointer ∧
    (s.enterNotice k p).i2cAddr = s.i2cAddr ∧
    (s.enterNotice k p).i2cWriteOpen = s.i2cWriteOpen ∧
    (s.enterNotice k p).scan = s.scan ∧
    (s.enterNotice k p).bus = s.bus ∧
    (s.enterNotice k p).backAsserted = s.backAsserted ∧
    (s.enterNotice k p).lines = s.lines ∧
    (s.enterNotice k p).loader = s.loader ∧
    (s.enterNotice k p).timebase = s.timebase ∧
    (s.enterNotice k p).pending = s.pending ∧
    (∀ q : PointNo, (s.enterNotice k p).point q = s.point q) ∧
    (∀ o : Port, (s.enterNotice k p).port o = s.port o) ∧
    (∀ o : Port, (s.enterNotice k p).slot o = s.slot o) ∧
    (∀ o : Port, (s.enterNotice k p).busyWith o = s.busyWith o) ∧
    (∀ c : ClassNo, (s.enterNotice k p).classState c = s.classState c) ∧
    (∀ r : RegionNo, (s.enterNotice k p).region r = s.region r) ∧
    (∀ c : ClassSel, (s.enterNotice k p).chain c = s.chain c) ∧
    (∀ r : Requester, (s.enterNotice k p).entry r = s.entry r) ∧
    (∀ l : LineNo, (s.enterNotice k p).line l = s.line l) ∧
    (∀ r : RegionNo, (s.enterNotice k p).pendingFlag r = s.pendingFlag r) ∧
    (s.enterNotice k p).loading = s.loading :=
  ⟨rfl, rfl, rfl, rfl, rfl, rfl, rfl, rfl, rfl, rfl, rfl, rfl, rfl, rfl, rfl, rfl, rfl, rfl, rfl, fun _ => rfl, fun _ => rfl, fun _ => rfl, fun _ => rfl, fun _ => rfl, fun _ => rfl, fun _ => rfl, fun _ => rfl, fun _ => rfl, fun _ => rfl, rfl⟩

@[simp] theorem leaveNotice_keeps (k : Level) (p : PointNo) :
    (s.leaveNotice k p).points = s.points ∧
    (s.leaveNotice k p).chains = s.chains ∧
    (s.leaveNotice k p).freeSegs = s.freeSegs ∧
    (s.leaveNotice k p).segWords = s.segWords ∧
    (s.leaveNotice k p).lastTaken = s.lastTaken ∧
    (s.leaveNotice k p).primary = s.primary ∧
    (s.leaveNotice k p).maint = s.maint ∧
    (s.leaveNotice k p).spi = s.spi ∧
    (s.leaveNotice k p).sdo = s.sdo ∧
    (s.leaveNotice k p).pointer = s.pointer ∧
    (s.leaveNotice k p).i2cAddr = s.i2cAddr ∧
    (s.leaveNotice k p).i2cWriteOpen = s.i2cWriteOpen ∧
    (s.leaveNotice k p).scan = s.scan ∧
    (s.leaveNotice k p).bus = s.bus ∧
    (s.leaveNotice k p).backAsserted = s.backAsserted ∧
    (s.leaveNotice k p).lines = s.lines ∧
    (s.leaveNotice k p).loader = s.loader ∧
    (s.leaveNotice k p).timebase = s.timebase ∧
    (s.leaveNotice k p).pending = s.pending ∧
    (∀ q : PointNo, (s.leaveNotice k p).point q = s.point q) ∧
    (∀ o : Port, (s.leaveNotice k p).port o = s.port o) ∧
    (∀ o : Port, (s.leaveNotice k p).slot o = s.slot o) ∧
    (∀ o : Port, (s.leaveNotice k p).busyWith o = s.busyWith o) ∧
    (∀ c : ClassNo, (s.leaveNotice k p).classState c = s.classState c) ∧
    (∀ r : RegionNo, (s.leaveNotice k p).region r = s.region r) ∧
    (∀ c : ClassSel, (s.leaveNotice k p).chain c = s.chain c) ∧
    (∀ r : Requester, (s.leaveNotice k p).entry r = s.entry r) ∧
    (∀ l : LineNo, (s.leaveNotice k p).line l = s.line l) ∧
    (∀ r : RegionNo, (s.leaveNotice k p).pendingFlag r = s.pendingFlag r) ∧
    (s.leaveNotice k p).loading = s.loading :=
  ⟨rfl, rfl, rfl, rfl, rfl, rfl, rfl, rfl, rfl, rfl, rfl, rfl, rfl, rfl, rfl, rfl, rfl, rfl, rfl, fun _ => rfl, fun _ => rfl, fun _ => rfl, fun _ => rfl, fun _ => rfl, fun _ => rfl, fun _ => rfl, fun _ => rfl, fun _ => rfl, fun _ => rfl, rfl⟩

@[simp] theorem writeNotifyEn_keeps (b : Bool) :
    (s.writeNotifyEn b).points = s.points ∧
    (s.writeNotifyEn b).chains = s.chains ∧
    (s.writeNotifyEn b).freeSegs = s.freeSegs ∧
    (s.writeNotifyEn b).segWords = s.segWords ∧
    (s.writeNotifyEn b).lastTaken = s.lastTaken ∧
    (s.writeNotifyEn b).primary = s.primary ∧
    (s.writeNotifyEn b).maint = s.maint ∧
    (s.writeNotifyEn b).spi = s.spi ∧
    (s.writeNotifyEn b).sdo = s.sdo ∧
    (s.writeNotifyEn b).pointer = s.pointer ∧
    (s.writeNotifyEn b).i2cAddr = s.i2cAddr ∧
    (s.writeNotifyEn b).i2cWriteOpen = s.i2cWriteOpen ∧
    (s.writeNotifyEn b).scan = s.scan ∧
    (s.writeNotifyEn b).bus = s.bus ∧
    (s.writeNotifyEn b).backAsserted = s.backAsserted ∧
    (s.writeNotifyEn b).lines = s.lines ∧
    (s.writeNotifyEn b).loader = s.loader ∧
    (s.writeNotifyEn b).timebase = s.timebase ∧
    (s.writeNotifyEn b).pending = s.pending ∧
    (∀ q : PointNo, (s.writeNotifyEn b).point q = s.point q) ∧
    (∀ o : Port, (s.writeNotifyEn b).port o = s.port o) ∧
    (∀ o : Port, (s.writeNotifyEn b).slot o = s.slot o) ∧
    (∀ o : Port, (s.writeNotifyEn b).busyWith o = s.busyWith o) ∧
    (∀ c : ClassNo, (s.writeNotifyEn b).classState c = s.classState c) ∧
    (∀ r : RegionNo, (s.writeNotifyEn b).region r = s.region r) ∧
    (∀ c : ClassSel, (s.writeNotifyEn b).chain c = s.chain c) ∧
    (∀ r : Requester, (s.writeNotifyEn b).entry r = s.entry r) ∧
    (∀ l : LineNo, (s.writeNotifyEn b).line l = s.line l) ∧
    (∀ r : RegionNo, (s.writeNotifyEn b).pendingFlag r = s.pendingFlag r) ∧
    (s.writeNotifyEn b).loading = s.loading :=
  ⟨rfl, rfl, rfl, rfl, rfl, rfl, rfl, rfl, rfl, rfl, rfl, rfl, rfl, rfl, rfl, rfl, rfl, rfl, rfl, fun _ => rfl, fun _ => rfl, fun _ => rfl, fun _ => rfl, fun _ => rfl, fun _ => rfl, fun _ => rfl, fun _ => rfl, fun _ => rfl, fun _ => rfl, rfl⟩

@[simp] theorem zeroSegment_keeps (g : SegNo) :
    (s.zeroSegment g).points = s.points ∧
    (s.zeroSegment g).chains = s.chains ∧
    (s.zeroSegment g).freeSegs = s.freeSegs ∧
    (s.zeroSegment g).lastTaken = s.lastTaken ∧
    (s.zeroSegment g).primary = s.primary ∧
    (s.zeroSegment g).maint = s.maint ∧
    (s.zeroSegment g).spi = s.spi ∧
    (s.zeroSegment g).sdo = s.sdo ∧
    (s.zeroSegment g).pointer = s.pointer ∧
    (s.zeroSegment g).i2cAddr = s.i2cAddr ∧
    (s.zeroSegment g).i2cWriteOpen = s.i2cWriteOpen ∧
    (s.zeroSegment g).scan = s.scan ∧
    (s.zeroSegment g).bus = s.bus ∧
    (s.zeroSegment g).backAsserted = s.backAsserted ∧
    (s.zeroSegment g).lines = s.lines ∧
    (s.zeroSegment g).notify = s.notify ∧
    (s.zeroSegment g).loader = s.loader ∧
    (s.zeroSegment g).timebase = s.timebase ∧
    (s.zeroSegment g).pending = s.pending ∧
    (∀ q : PointNo, (s.zeroSegment g).point q = s.point q) ∧
    (∀ o : Port, (s.zeroSegment g).port o = s.port o) ∧
    (∀ o : Port, (s.zeroSegment g).slot o = s.slot o) ∧
    (∀ o : Port, (s.zeroSegment g).busyWith o = s.busyWith o) ∧
    (∀ c : ClassNo, (s.zeroSegment g).classState c = s.classState c) ∧
    (∀ r : RegionNo, (s.zeroSegment g).region r = s.region r) ∧
    (∀ c : ClassSel, (s.zeroSegment g).chain c = s.chain c) ∧
    (∀ r : Requester, (s.zeroSegment g).entry r = s.entry r) ∧
    (∀ l : LineNo, (s.zeroSegment g).line l = s.line l) ∧
    (∀ r : RegionNo, (s.zeroSegment g).pendingFlag r = s.pendingFlag r) ∧
    (∀ v : Level, (s.zeroSegment g).noticeSet v = s.noticeSet v) ∧
    (∀ v : Level, (s.zeroSegment g).isOpen v = s.isOpen v) ∧
    (s.zeroSegment g).loading = s.loading :=
  ⟨rfl, rfl, rfl, rfl, rfl, rfl, rfl, rfl, rfl, rfl, rfl, rfl, rfl, rfl, rfl, rfl, rfl, rfl, rfl, fun _ => rfl, fun _ => rfl, fun _ => rfl, fun _ => rfl, fun _ => rfl, fun _ => rfl, fun _ => rfl, fun _ => rfl, fun _ => rfl, fun _ => rfl, fun _ => rfl, fun _ => rfl, rfl⟩

@[simp] theorem returnSegments_keeps (gs : List SegNo) :
    (s.returnSegments gs).points = s.points ∧
    (s.returnSegments gs).chains = s.chains ∧
    (s.returnSegments gs).segWords = s.segWords ∧
    (s.returnSegments gs).lastTaken = s.lastTaken ∧
    (s.returnSegments gs).primary = s.primary ∧
    (s.returnSegments gs).maint = s.maint ∧
    (s.returnSegments gs).spi = s.spi ∧
    (s.returnSegments gs).sdo = s.sdo ∧
    (s.returnSegments gs).pointer = s.pointer ∧
    (s.returnSegments gs).i2cAddr = s.i2cAddr ∧
    (s.returnSegments gs).i2cWriteOpen = s.i2cWriteOpen ∧
    (s.returnSegments gs).scan = s.scan ∧
    (s.returnSegments gs).bus = s.bus ∧
    (s.returnSegments gs).backAsserted = s.backAsserted ∧
    (s.returnSegments gs).lines = s.lines ∧
    (s.returnSegments gs).notify = s.notify ∧
    (s.returnSegments gs).loader = s.loader ∧
    (s.returnSegments gs).timebase = s.timebase ∧
    (s.returnSegments gs).pending = s.pending ∧
    (∀ q : PointNo, (s.returnSegments gs).point q = s.point q) ∧
    (∀ o : Port, (s.returnSegments gs).port o = s.port o) ∧
    (∀ o : Port, (s.returnSegments gs).slot o = s.slot o) ∧
    (∀ o : Port, (s.returnSegments gs).busyWith o = s.busyWith o) ∧
    (∀ c : ClassNo, (s.returnSegments gs).classState c = s.classState c) ∧
    (∀ r : RegionNo, (s.returnSegments gs).region r = s.region r) ∧
    (∀ c : ClassSel, (s.returnSegments gs).chain c = s.chain c) ∧
    (∀ r : Requester, (s.returnSegments gs).entry r = s.entry r) ∧
    (∀ l : LineNo, (s.returnSegments gs).line l = s.line l) ∧
    (∀ r : RegionNo, (s.returnSegments gs).pendingFlag r = s.pendingFlag r) ∧
    (∀ v : Level, (s.returnSegments gs).noticeSet v = s.noticeSet v) ∧
    (∀ v : Level, (s.returnSegments gs).isOpen v = s.isOpen v) ∧
    (s.returnSegments gs).loading = s.loading :=
  ⟨rfl, rfl, rfl, rfl, rfl, rfl, rfl, rfl, rfl, rfl, rfl, rfl, rfl, rfl, rfl, rfl, rfl, rfl, rfl, fun _ => rfl, fun _ => rfl, fun _ => rfl, fun _ => rfl, fun _ => rfl, fun _ => rfl, fun _ => rfl, fun _ => rfl, fun _ => rfl, fun _ => rfl, fun _ => rfl, fun _ => rfl, rfl⟩

@[simp] theorem setPort_keeps (k : Port) (x : PortState) :
    (s.setPort k x).points = s.points ∧
    (s.setPort k x).chains = s.chains ∧
    (s.setPort k x).freeSegs = s.freeSegs ∧
    (s.setPort k x).segWords = s.segWords ∧
    (s.setPort k x).lastTaken = s.lastTaken ∧
    (s.setPort k x).spi = s.spi ∧
    (s.setPort k x).sdo = s.sdo ∧
    (s.setPort k x).pointer = s.pointer ∧
    (s.setPort k x).i2cAddr = s.i2cAddr ∧
    (s.setPort k x).i2cWriteOpen = s.i2cWriteOpen ∧
    (s.setPort k x).scan = s.scan ∧
    (s.setPort k x).bus = s.bus ∧
    (s.setPort k x).backAsserted = s.backAsserted ∧
    (s.setPort k x).lines = s.lines ∧
    (s.setPort k x).notify = s.notify ∧
    (s.setPort k x).loader = s.loader ∧
    (s.setPort k x).timebase = s.timebase ∧
    (s.setPort k x).pending = s.pending ∧
    (∀ q : PointNo, (s.setPort k x).point q = s.point q) ∧
    (∀ c : ClassNo, (s.setPort k x).classState c = s.classState c) ∧
    (∀ r : RegionNo, (s.setPort k x).region r = s.region r) ∧
    (∀ c : ClassSel, (s.setPort k x).chain c = s.chain c) ∧
    (∀ r : Requester, (s.setPort k x).entry r = s.entry r) ∧
    (∀ l : LineNo, (s.setPort k x).line l = s.line l) ∧
    (∀ r : RegionNo, (s.setPort k x).pendingFlag r = s.pendingFlag r) ∧
    (∀ v : Level, (s.setPort k x).noticeSet v = s.noticeSet v) ∧
    (∀ v : Level, (s.setPort k x).isOpen v = s.isOpen v) ∧
    (s.setPort k x).loading = s.loading := by
  cases k <;> exact ⟨rfl, rfl, rfl, rfl, rfl, rfl, rfl, rfl, rfl, rfl, rfl, rfl, rfl, rfl, rfl, rfl, rfl, rfl, fun _ => rfl, fun _ => rfl, fun _ => rfl, fun _ => rfl, fun _ => rfl, fun _ => rfl, fun _ => rfl, fun _ => rfl, fun _ => rfl, rfl⟩

@[simp] theorem setSlot_keeps (k : Port) (x : Slot) :
    (s.setSlot k x).points = s.points ∧
    (s.setSlot k x).chains = s.chains ∧
    (s.setSlot k x).freeSegs = s.freeSegs ∧
    (s.setSlot k x).segWords = s.segWords ∧
    (s.setSlot k x).lastTaken = s.lastTaken ∧
    (s.setSlot k x).spi = s.spi ∧
    (s.setSlot k x).sdo = s.sdo ∧
    (s.setSlot k x).pointer = s.pointer ∧
    (s.setSlot k x).i2cAddr = s.i2cAddr ∧
    (s.setSlot k x).i2cWriteOpen = s.i2cWriteOpen ∧
    (s.setSlot k x).scan = s.scan ∧
    (s.setSlot k x).bus = s.bus ∧
    (s.setSlot k x).backAsserted = s.backAsserted ∧
    (s.setSlot k x).lines = s.lines ∧
    (s.setSlot k x).notify = s.notify ∧
    (s.setSlot k x).loader = s.loader ∧
    (s.setSlot k x).timebase = s.timebase ∧
    (s.setSlot k x).pending = s.pending ∧
    (∀ q : PointNo, (s.setSlot k x).point q = s.point q) ∧
    (∀ c : ClassNo, (s.setSlot k x).classState c = s.classState c) ∧
    (∀ r : RegionNo, (s.setSlot k x).region r = s.region r) ∧
    (∀ c : ClassSel, (s.setSlot k x).chain c = s.chain c) ∧
    (∀ r : Requester, (s.setSlot k x).entry r = s.entry r) ∧
    (∀ l : LineNo, (s.setSlot k x).line l = s.line l) ∧
    (∀ r : RegionNo, (s.setSlot k x).pendingFlag r = s.pendingFlag r) ∧
    (∀ v : Level, (s.setSlot k x).noticeSet v = s.noticeSet v) ∧
    (∀ v : Level, (s.setSlot k x).isOpen v = s.isOpen v) ∧
    (s.setSlot k x).loading = s.loading := by
  cases k <;> exact ⟨rfl, rfl, rfl, rfl, rfl, rfl, rfl, rfl, rfl, rfl, rfl, rfl, rfl, rfl, rfl, rfl, rfl, rfl, fun _ => rfl, fun _ => rfl, fun _ => rfl, fun _ => rfl, fun _ => rfl, fun _ => rfl, fun _ => rfl, fun _ => rfl, fun _ => rfl, rfl⟩

@[simp] theorem complete_keeps (k : Port) (code : ResultCode) (a : Vector Word 64) :
    (s.complete k code a).points = s.points ∧
    (s.complete k code a).chains = s.chains ∧
    (s.complete k code a).freeSegs = s.freeSegs ∧
    (s.complete k code a).segWords = s.segWords ∧
    (s.complete k code a).lastTaken = s.lastTaken ∧
    (s.complete k code a).spi = s.spi ∧
    (s.complete k code a).sdo = s.sdo ∧
    (s.complete k code a).pointer = s.pointer ∧
    (s.complete k code a).i2cAddr = s.i2cAddr ∧
    (s.complete k code a).i2cWriteOpen = s.i2cWriteOpen ∧
    (s.complete k code a).scan = s.scan ∧
    (s.complete k code a).bus = s.bus ∧
    (s.complete k code a).backAsserted = s.backAsserted ∧
    (s.complete k code a).lines = s.lines ∧
    (s.complete k code a).notify = s.notify ∧
    (s.complete k code a).loader = s.loader ∧
    (s.complete k code a).timebase = s.timebase ∧
    (s.complete k code a).pending = s.pending ∧
    (∀ q : PointNo, (s.complete k code a).point q = s.point q) ∧
    (∀ c : ClassNo, (s.complete k code a).classState c = s.classState c) ∧
    (∀ r : RegionNo, (s.complete k code a).region r = s.region r) ∧
    (∀ c : ClassSel, (s.complete k code a).chain c = s.chain c) ∧
    (∀ r : Requester, (s.complete k code a).entry r = s.entry r) ∧
    (∀ l : LineNo, (s.complete k code a).line l = s.line l) ∧
    (∀ r : RegionNo, (s.complete k code a).pendingFlag r = s.pendingFlag r) ∧
    (∀ v : Level, (s.complete k code a).noticeSet v = s.noticeSet v) ∧
    (∀ v : Level, (s.complete k code a).isOpen v = s.isOpen v) ∧
    (s.complete k code a).loading = s.loading := by
  cases k <;> exact ⟨rfl, rfl, rfl, rfl, rfl, rfl, rfl, rfl, rfl, rfl, rfl, rfl, rfl, rfl, rfl, rfl, rfl, rfl, fun _ => rfl, fun _ => rfl, fun _ => rfl, fun _ => rfl, fun _ => rfl, fun _ => rfl, fun _ => rfl, fun _ => rfl, fun _ => rfl, rfl⟩

@[simp] theorem send_keeps (k : Port) (w : Word) :
    (s.send k w).points = s.points ∧
    (s.send k w).chains = s.chains ∧
    (s.send k w).freeSegs = s.freeSegs ∧
    (s.send k w).segWords = s.segWords ∧
    (s.send k w).lastTaken = s.lastTaken ∧
    (s.send k w).spi = s.spi ∧
    (s.send k w).pointer = s.pointer ∧
    (s.send k w).i2cAddr = s.i2cAddr ∧
    (s.send k w).i2cWriteOpen = s.i2cWriteOpen ∧
    (s.send k w).scan = s.scan ∧
    (s.send k w).bus = s.bus ∧
    (s.send k w).backAsserted = s.backAsserted ∧
    (s.send k w).lines = s.lines ∧
    (s.send k w).notify = s.notify ∧
    (s.send k w).loader = s.loader ∧
    (s.send k w).timebase = s.timebase ∧
    (s.send k w).pending = s.pending ∧
    (∀ q : PointNo, (s.send k w).point q = s.point q) ∧
    (∀ c : ClassNo, (s.send k w).classState c = s.classState c) ∧
    (∀ r : RegionNo, (s.send k w).region r = s.region r) ∧
    (∀ c : ClassSel, (s.send k w).chain c = s.chain c) ∧
    (∀ r : Requester, (s.send k w).entry r = s.entry r) ∧
    (∀ l : LineNo, (s.send k w).line l = s.line l) ∧
    (∀ r : RegionNo, (s.send k w).pendingFlag r = s.pendingFlag r) ∧
    (∀ v : Level, (s.send k w).noticeSet v = s.noticeSet v) ∧
    (∀ v : Level, (s.send k w).isOpen v = s.isOpen v) ∧
    (s.send k w).loading = s.loading := by
  cases k <;> exact ⟨rfl, rfl, rfl, rfl, rfl, rfl, rfl, rfl, rfl, rfl, rfl, rfl, rfl, rfl, rfl, rfl, rfl, fun _ => rfl, fun _ => rfl, fun _ => rfl, fun _ => rfl, fun _ => rfl, fun _ => rfl, fun _ => rfl, fun _ => rfl, fun _ => rfl, rfl⟩


/-! ### What each update writes -/

@[simp] theorem sdo_send (p : Port) (w : Word) :
    (s.send p w).sdo = (match p with | .primary => .word w | .maint => s.sdo) := by cases p <;> rfl

@[simp] theorem point_setPoint_self (p : PointNo) (x : Point) : (s.setPoint p x).point p = x := by
  simp [point, setPoint]

theorem point_setPoint (p q : PointNo) (x : Point) : (s.setPoint p x).point q = if p = q then x else s.point q := by
  simp only [point, setPoint, Vector.getElem_set, Fin.ext_iff]

@[simp] theorem point_setPoint_ne {p q : PointNo} (h : p ≠ q) (x : Point) : (s.setPoint p x).point q = s.point q := by
  simp [point_setPoint, h]

@[simp] theorem setPoint_setPoint (p : PointNo) (x y : Point) : (s.setPoint p x).setPoint p y = s.setPoint p y := by
  simp [setPoint]

theorem point_setNext (p q : PointNo) (n : Option PointNo) :
    (s.setNext p n).point q = if p = q then { s.point q with next := n } else s.point q := by
  unfold setNext
  rw [point_setPoint]
  split
  · next h => rw [h]
  · rfl

@[simp] theorem port_setPort_self (p : Port) (x : PortState) : (s.setPort p x).port p = x := by cases p <;> rfl

@[simp] theorem port_setPort_other {p q : Port} (h : p ≠ q) (x : PortState) : (s.setPort p x).port q = s.port q := by
  cases p <;> cases q <;> first | rfl | exact absurd rfl h

@[simp] theorem slot_setSlot_self (p : Port) (x : Slot) : (s.setSlot p x).slot p = x := by cases p <;> rfl

@[simp] theorem slot_setSlot_other {p q : Port} (h : p ≠ q) (x : Slot) : (s.setSlot p x).slot q = s.slot q := by
  cases p <;> cases q <;> first | rfl | exact absurd rfl h

@[simp] theorem port_setSlot_self (p : Port) (x : Slot) : (s.setSlot p x).port p = { s.port p with slot := x } := by
  cases p <;> rfl

@[simp] theorem slot_complete_self (p : Port) (code : ResultCode) (a : Vector Word 64) :
    (s.complete p code a).slot p = ⟨.done, code, a⟩ := by cases p <;> rfl

@[simp] theorem slot_complete_other {p q : Port} (h : p ≠ q) (code : ResultCode) (a : Vector Word 64) :
    (s.complete p code a).slot q = s.slot q := by
  cases p <;> cases q <;> first | rfl | exact absurd rfl h

@[simp] theorem classState_setClassState_self (c : ClassNo) (x : ClassState) :
    (s.setClassState c x).classState c = x := by simp [classState, setClassState]

@[simp] theorem classState_setClassState_ne {c d : ClassNo} (h : c ≠ d) (x : ClassState) :
    (s.setClassState c x).classState d = s.classState d := by
  simp only [classState, setClassState, Vector.getElem_set]
  rw [if_neg (fun e => h (Fin.ext e))]

@[simp] theorem region_setRegion_self (r : RegionNo) (x : Region) : (s.setRegion r x).region r = x := by
  simp [region, setRegion]

@[simp] theorem region_setRegion_ne {r q : RegionNo} (h : r ≠ q) (x : Region) :
    (s.setRegion r x).region q = s.region q := by
  simp only [region, setRegion, Vector.getElem_set]
  rw [if_neg (fun e => h (Fin.ext e))]

@[simp] theorem line_setLine_self (l : LineNo) (x : Line) : (s.setLine l x).line l = x := by simp [line, setLine]

@[simp] theorem line_setLine_ne {l k : LineNo} (h : l ≠ k) (x : Line) : (s.setLine l x).line k = s.line k := by
  simp only [line, setLine, Vector.getElem_set]
  rw [if_neg (fun e => h (Fin.ext e))]

@[simp] theorem pendingFlag_setPendingFlag_self (r : RegionNo) (b : Bool) :
    (s.setPendingFlag r b).pendingFlag r = b := by simp [pendingFlag, setPendingFlag]

@[simp] theorem pendingFlag_setPendingFlag_ne {r q : RegionNo} (h : r ≠ q) (b : Bool) :
    (s.setPendingFlag r b).pendingFlag q = s.pendingFlag q := by
  simp only [pendingFlag, setPendingFlag, Vector.getElem_set]
  rw [if_neg (fun e => h (Fin.ext e))]

@[simp] theorem noticeSet_setNotice_self (v : Level) (l : List PointNo) : (s.setNotice v l).noticeSet v = l := by
  simp [noticeSet, setNotice]

@[simp] theorem noticeSet_setNotice_ne {v u : Level} (h : v ≠ u) (l : List PointNo) :
    (s.setNotice v l).noticeSet u = s.noticeSet u := by
  simp only [noticeSet, setNotice, Vector.getElem_set]
  rw [if_neg (fun e => h (Fin.ext e))]

theorem chainIndex_injective : Function.Injective chainIndex := by decide

@[simp] theorem chain_setChain_self (c : ClassSel) (x : Chain) : (s.setChain c x).chain c = x := by
  simp [chain, setChain]

@[simp] theorem chain_setChain_ne {c d : ClassSel} (h : c ≠ d) (x : Chain) : (s.setChain c x).chain d = s.chain d := by
  simp only [chain, setChain, Vector.getElem_set]
  rw [if_neg (fun e => h (chainIndex_injective (Fin.ext e)))]

@[simp] theorem entry_setEntry_self (r : Requester) (q : Option Request) : (s.setEntry r q).entry r = q := by
  rcases r with _ | (_ | _) <;> rfl

@[simp] theorem entry_setEntry_ne {r t : Requester} (h : r ≠ t) (q : Option Request) :
    (s.setEntry r q).entry t = s.entry t := by
  rcases r with _ | (_ | _) <;> rcases t with _ | (_ | _) <;> first | rfl | exact absurd rfl h

@[simp] theorem phase_setPhase (x : BusPhase) : (s.setPhase x).bus.phase = x := rfl

@[simp] theorem pins_setPins (x : Pins) : (s.setPins x).bus.pins = x := rfl

/-! ### The state after reset -/

@[simp] theorem point_reset (p : PointNo) : State.reset.point p = Point.free := by
  simp [point, State.reset]

@[simp] theorem chain_reset (c : ClassSel) : State.reset.chain c = Chain.empty := by
  simp [chain, State.reset]

@[simp] theorem noticeSet_reset (v : Level) : State.reset.noticeSet v = [] := by
  simp [noticeSet, State.reset, Notify.reset]

@[simp] theorem classState_reset (c : ClassNo) : State.reset.classState c = ClassState.reset := by
  simp [classState, State.reset, Scan.reset]

end Sys2Proof.Machine.State
end

