-- ==== Sys2Proof/Laws/Ops.lean ====
section
/-! SUPPORT. What each shared operation may change, and what the operations over causes, segments, chains and requests answer. Provers cite these instead of unfolding the operations. -/

namespace Sys2Proof.Machine.State

variable (s : State)

/-! ### Inside the backplane and scan engines -/

@[simp] theorem setPhase_bus (x : BusPhase) :
    (s.setPhase x).bus.regions = s.bus.regions ∧ (s.setPhase x).bus.entries = s.bus.entries ∧
    (s.setPhase x).bus.lastGranted = s.bus.lastGranted ∧ (s.setPhase x).bus.pins = s.bus.pins ∧
    (∀ r, (s.setPhase x).region r = s.region r) ∧ (∀ r, (s.setPhase x).entry r = s.entry r) :=
  ⟨rfl, rfl, rfl, rfl, fun _ => rfl, fun _ => rfl⟩

@[simp] theorem setPins_bus (x : Pins) :
    (s.setPins x).bus.regions = s.bus.regions ∧ (s.setPins x).bus.entries = s.bus.entries ∧
    (s.setPins x).bus.lastGranted = s.bus.lastGranted ∧ (s.setPins x).bus.phase = s.bus.phase ∧
    (∀ r, (s.setPins x).region r = s.region r) ∧ (∀ r, (s.setPins x).entry r = s.entry r) :=
  ⟨rfl, rfl, rfl, rfl, fun _ => rfl, fun _ => rfl⟩

@[simp] theorem setEntry_bus (r : Requester) (q : Option Request) :
    (s.setEntry r q).bus.regions = s.bus.regions ∧ (s.setEntry r q).bus.lastGranted = s.bus.lastGranted ∧
    (s.setEntry r q).bus.phase = s.bus.phase ∧ (s.setEntry r q).bus.pins = s.bus.pins ∧
    (∀ t, (s.setEntry r q).region t = s.region t) := by
  rcases r with _ | (_ | _) <;> exact ⟨rfl, rfl, rfl, rfl, fun _ => rfl⟩

@[simp] theorem setRegion_bus (r : RegionNo) (x : Region) :
    (s.setRegion r x).bus.entries = s.bus.entries ∧ (s.setRegion r x).bus.lastGranted = s.bus.lastGranted ∧
    (s.setRegion r x).bus.phase = s.bus.phase ∧ (s.setRegion r x).bus.pins = s.bus.pins ∧
    (∀ t, (s.setRegion r x).entry t = s.entry t) :=
  ⟨rfl, rfl, rfl, rfl, fun _ => rfl⟩

@[simp] theorem setClassState_scan (c : ClassNo) (x : ClassState) :
    (s.setClassState c x).scan.run = s.scan.run ∧ (s.setClassState c x).scan.pendingFlags = s.scan.pendingFlags ∧
    (s.setClassState c x).scan.sweep = s.scan.sweep ∧ (s.setClassState c x).scan.sweepCursor = s.scan.sweepCursor ∧
    (s.setClassState c x).scan.req = s.scan.req ∧ (∀ r, (s.setClassState c x).pendingFlag r = s.pendingFlag r) :=
  ⟨rfl, rfl, rfl, rfl, rfl, fun _ => rfl⟩

@[simp] theorem setPendingFlag_scan (r : RegionNo) (b : Bool) :
    (s.setPendingFlag r b).scan.run = s.scan.run ∧ (s.setPendingFlag r b).scan.classes = s.scan.classes ∧
    (s.setPendingFlag r b).scan.sweep = s.scan.sweep ∧ (s.setPendingFlag r b).scan.sweepCursor = s.scan.sweepCursor ∧
    (s.setPendingFlag r b).scan.req = s.scan.req ∧ (∀ c, (s.setPendingFlag r b).classState c = s.classState c) :=
  ⟨rfl, rfl, rfl, rfl, rfl, fun _ => rfl⟩

@[simp] theorem setNotice_notify (v : Level) (l : List PointNo) :
    (s.setNotice v l).notify.mask = s.notify.mask ∧ (s.setNotice v l).notify.type = s.notify.type ∧
    (s.setNotice v l).notify.order = s.notify.order ∧ (s.setNotice v l).notify.orderErr = s.notify.orderErr ∧
    (s.setNotice v l).notify.notifyEn = s.notify.notifyEn ∧ (∀ u, (s.setNotice v l).isOpen u = s.isOpen u) ∧
    (∀ u, (s.setNotice v l).isAck u = s.isAck u) :=
  ⟨rfl, rfl, rfl, rfl, rfl, fun _ => rfl, fun _ => rfl⟩

/-! ### What each shared operation leaves as it was -/

@[simp] theorem setCauses_keeps (p : PointNo) (c : Byte) :
    (s.setCauses p c).chains = s.chains ∧
    (s.setCauses p c).freeSegs = s.freeSegs ∧
    (s.setCauses p c).segWords = s.segWords ∧
    (s.setCauses p c).lastTaken = s.lastTaken ∧
    (s.setCauses p c).primary = s.primary ∧
    (s.setCauses p c).maint = s.maint ∧
    (s.setCauses p c).spi = s.spi ∧
    (s.setCauses p c).sdo = s.sdo ∧
    (s.setCauses p c).pointer = s.pointer ∧
    (s.setCauses p c).i2cAddr = s.i2cAddr ∧
    (s.setCauses p c).i2cWriteOpen = s.i2cWriteOpen ∧
    (s.setCauses p c).scan = s.scan ∧
    (s.setCauses p c).bus = s.bus ∧
    (s.setCauses p c).backAsserted = s.backAsserted ∧
    (s.setCauses p c).lines = s.lines ∧
    (s.setCauses p c).loader = s.loader ∧
    (s.setCauses p c).timebase = s.timebase ∧
    (s.setCauses p c).pending = s.pending ∧
    (∀ o : Port, (s.setCauses p c).port o = s.port o) ∧
    (∀ o : Port, (s.setCauses p c).slot o = s.slot o) ∧
    (∀ o : Port, (s.setCauses p c).busyWith o = s.busyWith o) ∧
    (∀ d : ClassNo, (s.setCauses p c).classState d = s.classState d) ∧
    (∀ t : RegionNo, (s.setCauses p c).region t = s.region t) ∧
    (∀ d : ClassSel, (s.setCauses p c).chain d = s.chain d) ∧
    (s.setCauses p c).loading = s.loading := by
  unfold setCauses
  dsimp only
  split_ifs <;> simp

@[simp] theorem emptyCauses_keeps (p : PointNo) :
    (s.emptyCauses p).chains = s.chains ∧
    (s.emptyCauses p).freeSegs = s.freeSegs ∧
    (s.emptyCauses p).segWords = s.segWords ∧
    (s.emptyCauses p).lastTaken = s.lastTaken ∧
    (s.emptyCauses p).primary = s.primary ∧
    (s.emptyCauses p).maint = s.maint ∧
    (s.emptyCauses p).spi = s.spi ∧
    (s.emptyCauses p).sdo = s.sdo ∧
    (s.emptyCauses p).pointer = s.pointer ∧
    (s.emptyCauses p).i2cAddr = s.i2cAddr ∧
    (s.emptyCauses p).i2cWriteOpen = s.i2cWriteOpen ∧
    (s.emptyCauses p).scan = s.scan ∧
    (s.emptyCauses p).bus = s.bus ∧
    (s.emptyCauses p).backAsserted = s.backAsserted ∧
    (s.emptyCauses p).lines = s.lines ∧
    (s.emptyCauses p).loader = s.loader ∧
    (s.emptyCauses p).timebase = s.timebase ∧
    (s.emptyCauses p).pending = s.pending ∧
    (∀ o : Port, (s.emptyCauses p).port o = s.port o) ∧
    (∀ o : Port, (s.emptyCauses p).slot o = s.slot o) ∧
    (∀ o : Port, (s.emptyCauses p).busyWith o = s.busyWith o) ∧
    (∀ d : ClassNo, (s.emptyCauses p).classState d = s.classState d) ∧
    (∀ t : RegionNo, (s.emptyCauses p).region t = s.region t) ∧
    (∀ d : ClassSel, (s.emptyCauses p).chain d = s.chain d) ∧
    (s.emptyCauses p).loading = s.loading := by
  unfold emptyCauses
  simp

@[simp] theorem addCauses_keeps (p : PointNo) (c : Byte) :
    (s.addCauses p c).chains = s.chains ∧
    (s.addCauses p c).freeSegs = s.freeSegs ∧
    (s.addCauses p c).segWords = s.segWords ∧
    (s.addCauses p c).lastTaken = s.lastTaken ∧
    (s.addCauses p c).primary = s.primary ∧
    (s.addCauses p c).maint = s.maint ∧
    (s.addCauses p c).spi = s.spi ∧
    (s.addCauses p c).sdo = s.sdo ∧
    (s.addCauses p c).pointer = s.pointer ∧
    (s.addCauses p c).i2cAddr = s.i2cAddr ∧
    (s.addCauses p c).i2cWriteOpen = s.i2cWriteOpen ∧
    (s.addCauses p c).scan = s.scan ∧
    (s.addCauses p c).bus = s.bus ∧
    (s.addCauses p c).backAsserted = s.backAsserted ∧
    (s.addCauses p c).lines = s.lines ∧
    (s.addCauses p c).loader = s.loader ∧
    (s.addCauses p c).timebase = s.timebase ∧
    (s.addCauses p c).pending = s.pending ∧
    (∀ o : Port, (s.addCauses p c).port o = s.port o) ∧
    (∀ o : Port, (s.addCauses p c).slot o = s.slot o) ∧
    (∀ o : Port, (s.addCauses p c).busyWith o = s.busyWith o) ∧
    (∀ d : ClassNo, (s.addCauses p c).classState d = s.classState d) ∧
    (∀ t : RegionNo, (s.addCauses p c).region t = s.region t) ∧
    (∀ d : ClassSel, (s.addCauses p c).chain d = s.chain d) ∧
    (s.addCauses p c).loading = s.loading := by
  unfold addCauses
  simp

@[simp] theorem appendTo_keeps (c : ClassSel) (p : PointNo) :
    (s.appendTo c p).freeSegs = s.freeSegs ∧
    (s.appendTo c p).segWords = s.segWords ∧
    (s.appendTo c p).lastTaken = s.lastTaken ∧
    (s.appendTo c p).primary = s.primary ∧
    (s.appendTo c p).maint = s.maint ∧
    (s.appendTo c p).spi = s.spi ∧
    (s.appendTo c p).sdo = s.sdo ∧
    (s.appendTo c p).pointer = s.pointer ∧
    (s.appendTo c p).i2cAddr = s.i2cAddr ∧
    (s.appendTo c p).i2cWriteOpen = s.i2cWriteOpen ∧
    (s.appendTo c p).scan = s.scan ∧
    (s.appendTo c p).bus = s.bus ∧
    (s.appendTo c p).backAsserted = s.backAsserted ∧
    (s.appendTo c p).lines = s.lines ∧
    (s.appendTo c p).notify = s.notify ∧
    (s.appendTo c p).loader = s.loader ∧
    (s.appendTo c p).timebase = s.timebase ∧
    (s.appendTo c p).pending = s.pending ∧
    (∀ o : Port, (s.appendTo c p).port o = s.port o) ∧
    (∀ o : Port, (s.appendTo c p).slot o = s.slot o) ∧
    (∀ o : Port, (s.appendTo c p).busyWith o = s.busyWith o) ∧
    (∀ d : ClassNo, (s.appendTo c p).classState d = s.classState d) ∧
    (∀ t : RegionNo, (s.appendTo c p).region t = s.region t) ∧
    (∀ u : Level, (s.appendTo c p).noticeSet u = s.noticeSet u) ∧
    (s.appendTo c p).loading = s.loading := by
  unfold appendTo
  dsimp only
  split <;> simp

@[simp] theorem cursorUnlink_keeps (c : ClassSel) (p : PointNo) (n : Option PointNo) :
    (s.cursorUnlink c p n).points = s.points ∧
    (s.cursorUnlink c p n).chains = s.chains ∧
    (s.cursorUnlink c p n).freeSegs = s.freeSegs ∧
    (s.cursorUnlink c p n).segWords = s.segWords ∧
    (s.cursorUnlink c p n).lastTaken = s.lastTaken ∧
    (s.cursorUnlink c p n).primary = s.primary ∧
    (s.cursorUnlink c p n).maint = s.maint ∧
    (s.cursorUnlink c p n).spi = s.spi ∧
    (s.cursorUnlink c p n).sdo = s.sdo ∧
    (s.cursorUnlink c p n).pointer = s.pointer ∧
    (s.cursorUnlink c p n).i2cAddr = s.i2cAddr ∧
    (s.cursorUnlink c p n).i2cWriteOpen = s.i2cWriteOpen ∧
    (s.cursorUnlink c p n).bus = s.bus ∧
    (s.cursorUnlink c p n).backAsserted = s.backAsserted ∧
    (s.cursorUnlink c p n).lines = s.lines ∧
    (s.cursorUnlink c p n).notify = s.notify ∧
    (s.cursorUnlink c p n).loader = s.loader ∧
    (s.cursorUnlink c p n).timebase = s.timebase ∧
    (s.cursorUnlink c p n).pending = s.pending ∧
    (∀ q : PointNo, (s.cursorUnlink c p n).point q = s.point q) ∧
    (∀ o : Port, (s.cursorUnlink c p n).port o = s.port o) ∧
    (∀ o : Port, (s.cursorUnlink c p n).slot o = s.slot o) ∧
    (∀ o : Port, (s.cursorUnlink c p n).busyWith o = s.busyWith o) ∧
    (∀ t : RegionNo, (s.cursorUnlink c p n).region t = s.region t) ∧
    (∀ d : ClassSel, (s.cursorUnlink c p n).chain d = s.chain d) ∧
    (∀ u : Level, (s.cursorUnlink c p n).noticeSet u = s.noticeSet u) ∧
    (s.cursorUnlink c p n).loading = s.loading := by
  unfold cursorUnlink
  split
  · simp
  · dsimp only
    split_ifs <;> simp

@[simp] theorem closeGap_keeps (c : ClassSel) (p : PointNo) (n : Option PointNo) :
    (s.closeGap c p n).freeSegs = s.freeSegs ∧
    (s.closeGap c p n).segWords = s.segWords ∧
    (s.closeGap c p n).lastTaken = s.lastTaken ∧
    (s.closeGap c p n).primary = s.primary ∧
    (s.closeGap c p n).maint = s.maint ∧
    (s.closeGap c p n).spi = s.spi ∧
    (s.closeGap c p n).sdo = s.sdo ∧
    (s.closeGap c p n).pointer = s.pointer ∧
    (s.closeGap c p n).i2cAddr = s.i2cAddr ∧
    (s.closeGap c p n).i2cWriteOpen = s.i2cWriteOpen ∧
    (s.closeGap c p n).scan = s.scan ∧
    (s.closeGap c p n).bus = s.bus ∧
    (s.closeGap c p n).backAsserted = s.backAsserted ∧
    (s.closeGap c p n).lines = s.lines ∧
    (s.closeGap c p n).notify = s.notify ∧
    (s.closeGap c p n).loader = s.loader ∧
    (s.closeGap c p n).timebase = s.timebase ∧
    (s.closeGap c p n).pending = s.pending ∧
    (∀ o : Port, (s.closeGap c p n).port o = s.port o) ∧
    (∀ o : Port, (s.closeGap c p n).slot o = s.slot o) ∧
    (∀ o : Port, (s.closeGap c p n).busyWith o = s.busyWith o) ∧
    (∀ d : ClassNo, (s.closeGap c p n).classState d = s.classState d) ∧
    (∀ t : RegionNo, (s.closeGap c p n).region t = s.region t) ∧
    (∀ u : Level, (s.closeGap c p n).noticeSet u = s.noticeSet u) ∧
    (s.closeGap c p n).loading = s.loading := by
  unfold closeGap
  dsimp only
  cases s.predecessor p 256 (s.chain c).head <;> split_ifs <;> simp

@[simp] theorem unlinkFrom_keeps (c : ClassSel) (p : PointNo) :
    (s.unlinkFrom c p).freeSegs = s.freeSegs ∧
    (s.unlinkFrom c p).segWords = s.segWords ∧
    (s.unlinkFrom c p).lastTaken = s.lastTaken ∧
    (s.unlinkFrom c p).primary = s.primary ∧
    (s.unlinkFrom c p).maint = s.maint ∧
    (s.unlinkFrom c p).spi = s.spi ∧
    (s.unlinkFrom c p).sdo = s.sdo ∧
    (s.unlinkFrom c p).pointer = s.pointer ∧
    (s.unlinkFrom c p).i2cAddr = s.i2cAddr ∧
    (s.unlinkFrom c p).i2cWriteOpen = s.i2cWriteOpen ∧
    (s.unlinkFrom c p).bus = s.bus ∧
    (s.unlinkFrom c p).backAsserted = s.backAsserted ∧
    (s.unlinkFrom c p).lines = s.lines ∧
    (s.unlinkFrom c p).notify = s.notify ∧
    (s.unlinkFrom c p).loader = s.loader ∧
    (s.unlinkFrom c p).timebase = s.timebase ∧
    (s.unlinkFrom c p).pending = s.pending ∧
    (∀ o : Port, (s.unlinkFrom c p).port o = s.port o) ∧
    (∀ o : Port, (s.unlinkFrom c p).slot o = s.slot o) ∧
    (∀ o : Port, (s.unlinkFrom c p).busyWith o = s.busyWith o) ∧
    (∀ t : RegionNo, (s.unlinkFrom c p).region t = s.region t) ∧
    (∀ u : Level, (s.unlinkFrom c p).noticeSet u = s.noticeSet u) ∧
    (s.unlinkFrom c p).loading = s.loading := by
  unfold unlinkFrom
  simp

theorem foldl_zeroSegment_keeps (gs : List SegNo) :
    ∃ w, gs.foldl zeroSegment s = { s with segWords := w } := by
  induction gs generalizing s with
  | nil => exact ⟨s.segWords, rfl⟩
  | cons g gs ih =>
    obtain ⟨w, hw⟩ := ih (s.zeroSegment g)
    exact ⟨w, hw⟩

/-- Taking k segments: the free list loses its k lowest entries, and only segment words change beside it (R101). -/
theorem takeSegments_eq (k : Nat) :
    ∃ w, s.takeSegments k = { s with freeSegs := s.freeSegs.drop k, segWords := w } := by
  obtain ⟨w, hw⟩ := foldl_zeroSegment_keeps { s with freeSegs := s.freeSegs.drop k } (s.freeSegs.take k)
  exact ⟨w, hw⟩

@[simp] theorem takeSegments_freeSegs (k : Nat) : (s.takeSegments k).freeSegs = s.freeSegs.drop k := by
  obtain ⟨w, hw⟩ := takeSegments_eq s k
  rw [hw]

@[simp] theorem takeSegments_keeps (k : Nat) :
    (s.takeSegments k).points = s.points ∧
    (s.takeSegments k).chains = s.chains ∧
    (s.takeSegments k).lastTaken = s.lastTaken ∧
    (s.takeSegments k).primary = s.primary ∧
    (s.takeSegments k).maint = s.maint ∧
    (s.takeSegments k).spi = s.spi ∧
    (s.takeSegments k).sdo = s.sdo ∧
    (s.takeSegments k).pointer = s.pointer ∧
    (s.takeSegments k).i2cAddr = s.i2cAddr ∧
    (s.takeSegments k).i2cWriteOpen = s.i2cWriteOpen ∧
    (s.takeSegments k).scan = s.scan ∧
    (s.takeSegments k).bus = s.bus ∧
    (s.takeSegments k).backAsserted = s.backAsserted ∧
    (s.takeSegments k).lines = s.lines ∧
    (s.takeSegments k).notify = s.notify ∧
    (s.takeSegments k).loader = s.loader ∧
    (s.takeSegments k).timebase = s.timebase ∧
    (s.takeSegments k).pending = s.pending ∧
    (∀ q : PointNo, (s.takeSegments k).point q = s.point q) ∧
    (∀ o : Port, (s.takeSegments k).port o = s.port o) ∧
    (∀ o : Port, (s.takeSegments k).slot o = s.slot o) ∧
    (∀ o : Port, (s.takeSegments k).busyWith o = s.busyWith o) ∧
    (∀ d : ClassNo, (s.takeSegments k).classState d = s.classState d) ∧
    (∀ t : RegionNo, (s.takeSegments k).region t = s.region t) ∧
    (∀ d : ClassSel, (s.takeSegments k).chain d = s.chain d) ∧
    (∀ u : Level, (s.takeSegments k).noticeSet u = s.noticeSet u) ∧
    (s.takeSegments k).loading = s.loading := by
  obtain ⟨w, hw⟩ := takeSegments_eq s k
  rw [hw]
  exact ⟨rfl, rfl, rfl, rfl, rfl, rfl, rfl, rfl, rfl, rfl, rfl, rfl, rfl, rfl, rfl, rfl, rfl, rfl, fun _ => rfl, fun _ => rfl, fun _ => rfl, fun _ => rfl, fun _ => rfl, fun _ => rfl, fun _ => rfl, fun _ => rfl, rfl⟩

theorem writeBlockFrom_eq (segs : List SegNo) (i : Nat) (ws : List Word) :
    ∃ w, s.writeBlockFrom segs i ws = { s with segWords := w } := by
  induction ws generalizing s i with
  | nil => exact ⟨s.segWords, rfl⟩
  | cons x xs ih =>
    obtain ⟨w, hw⟩ := ih (s.setBlockWord segs i x) (i + 1)
    refine ⟨w, ?_⟩
    rw [writeBlockFrom, hw]
    unfold setBlockWord
    split <;> rfl

/-- A commit changes segment words only (R116). -/
theorem commitBlock_eq (r : Point) (ws : List Word) : ∃ w, s.commitBlock r ws = { s with segWords := w } :=
  writeBlockFrom_eq s r.segments 0 _

@[simp] theorem commitBlock_keeps (r : Point) (ws : List Word) :
    (s.commitBlock r ws).points = s.points ∧
    (s.commitBlock r ws).chains = s.chains ∧
    (s.commitBlock r ws).freeSegs = s.freeSegs ∧
    (s.commitBlock r ws).lastTaken = s.lastTaken ∧
    (s.commitBlock r ws).primary = s.primary ∧
    (s.commitBlock r ws).maint = s.maint ∧
    (s.commitBlock r ws).spi = s.spi ∧
    (s.commitBlock r ws).sdo = s.sdo ∧
    (s.commitBlock r ws).pointer = s.pointer ∧
    (s.commitBlock r ws).i2cAddr = s.i2cAddr ∧
    (s.commitBlock r ws).i2cWriteOpen = s.i2cWriteOpen ∧
    (s.commitBlock r ws).scan = s.scan ∧
    (s.commitBlock r ws).bus = s.bus ∧
    (s.commitBlock r ws).backAsserted = s.backAsserted ∧
    (s.commitBlock r ws).lines = s.lines ∧
    (s.commitBlock r ws).notify = s.notify ∧
    (s.commitBlock r ws).loader = s.loader ∧
    (s.commitBlock r ws).timebase = s.timebase ∧
    (s.commitBlock r ws).pending = s.pending ∧
    (∀ q : PointNo, (s.commitBlock r ws).point q = s.point q) ∧
    (∀ o : Port, (s.commitBlock r ws).port o = s.port o) ∧
    (∀ o : Port, (s.commitBlock r ws).slot o = s.slot o) ∧
    (∀ o : Port, (s.commitBlock r ws).busyWith o = s.busyWith o) ∧
    (∀ d : ClassNo, (s.commitBlock r ws).classState d = s.classState d) ∧
    (∀ t : RegionNo, (s.commitBlock r ws).region t = s.region t) ∧
    (∀ d : ClassSel, (s.commitBlock r ws).chain d = s.chain d) ∧
    (∀ u : Level, (s.commitBlock r ws).noticeSet u = s.noticeSet u) ∧
    (s.commitBlock r ws).loading = s.loading := by
  obtain ⟨w, hw⟩ := commitBlock_eq s r ws
  rw [hw]
  exact ⟨rfl, rfl, rfl, rfl, rfl, rfl, rfl, rfl, rfl, rfl, rfl, rfl, rfl, rfl, rfl, rfl, rfl, rfl, rfl, fun _ => rfl, fun _ => rfl, fun _ => rfl, fun _ => rfl, fun _ => rfl, fun _ => rfl, fun _ => rfl, fun _ => rfl, rfl⟩

@[simp] theorem enterPhase_keeps (k : Port) (x : CmdPhase) :
    (s.enterPhase k x).points = s.points ∧
    (s.enterPhase k x).chains = s.chains ∧
    (s.enterPhase k x).freeSegs = s.freeSegs ∧
    (s.enterPhase k x).segWords = s.segWords ∧
    (s.enterPhase k x).lastTaken = s.lastTaken ∧
    (s.enterPhase k x).spi = s.spi ∧
    (s.enterPhase k x).sdo = s.sdo ∧
    (s.enterPhase k x).pointer = s.pointer ∧
    (s.enterPhase k x).i2cAddr = s.i2cAddr ∧
    (s.enterPhase k x).i2cWriteOpen = s.i2cWriteOpen ∧
    (s.enterPhase k x).scan = s.scan ∧
    (s.enterPhase k x).bus = s.bus ∧
    (s.enterPhase k x).backAsserted = s.backAsserted ∧
    (s.enterPhase k x).lines = s.lines ∧
    (s.enterPhase k x).notify = s.notify ∧
    (s.enterPhase k x).loader = s.loader ∧
    (s.enterPhase k x).timebase = s.timebase ∧
    (s.enterPhase k x).pending = s.pending ∧
    (∀ q : PointNo, (s.enterPhase k x).point q = s.point q) ∧
    (∀ d : ClassNo, (s.enterPhase k x).classState d = s.classState d) ∧
    (∀ t : RegionNo, (s.enterPhase k x).region t = s.region t) ∧
    (∀ d : ClassSel, (s.enterPhase k x).chain d = s.chain d) ∧
    (∀ u : Level, (s.enterPhase k x).noticeSet u = s.noticeSet u) ∧
    (s.enterPhase k x).loading = s.loading := by
  unfold enterPhase
  split <;> simp

@[simp] theorem completeZero_keeps (k : Port) (c : ResultCode) :
    (s.completeZero k c).points = s.points ∧
    (s.completeZero k c).chains = s.chains ∧
    (s.completeZero k c).freeSegs = s.freeSegs ∧
    (s.completeZero k c).segWords = s.segWords ∧
    (s.completeZero k c).lastTaken = s.lastTaken ∧
    (s.completeZero k c).spi = s.spi ∧
    (s.completeZero k c).sdo = s.sdo ∧
    (s.completeZero k c).pointer = s.pointer ∧
    (s.completeZero k c).i2cAddr = s.i2cAddr ∧
    (s.completeZero k c).i2cWriteOpen = s.i2cWriteOpen ∧
    (s.completeZero k c).scan = s.scan ∧
    (s.completeZero k c).bus = s.bus ∧
    (s.completeZero k c).backAsserted = s.backAsserted ∧
    (s.completeZero k c).lines = s.lines ∧
    (s.completeZero k c).notify = s.notify ∧
    (s.completeZero k c).loader = s.loader ∧
    (s.completeZero k c).timebase = s.timebase ∧
    (s.completeZero k c).pending = s.pending ∧
    (∀ q : PointNo, (s.completeZero k c).point q = s.point q) ∧
    (∀ d : ClassNo, (s.completeZero k c).classState d = s.classState d) ∧
    (∀ t : RegionNo, (s.completeZero k c).region t = s.region t) ∧
    (∀ d : ClassSel, (s.completeZero k c).chain d = s.chain d) ∧
    (∀ u : Level, (s.completeZero k c).noticeSet u = s.noticeSet u) ∧
    (s.completeZero k c).loading = s.loading := by
  unfold completeZero
  simp

@[simp] theorem completeSnapshot_keeps (k : Port) (c : ResultCode) (n : PointNo) :
    (s.completeSnapshot k c n).points = s.points ∧
    (s.completeSnapshot k c n).chains = s.chains ∧
    (s.completeSnapshot k c n).freeSegs = s.freeSegs ∧
    (s.completeSnapshot k c n).segWords = s.segWords ∧
    (s.completeSnapshot k c n).lastTaken = s.lastTaken ∧
    (s.completeSnapshot k c n).spi = s.spi ∧
    (s.completeSnapshot k c n).sdo = s.sdo ∧
    (s.completeSnapshot k c n).pointer = s.pointer ∧
    (s.completeSnapshot k c n).i2cAddr = s.i2cAddr ∧
    (s.completeSnapshot k c n).i2cWriteOpen = s.i2cWriteOpen ∧
    (s.completeSnapshot k c n).scan = s.scan ∧
    (s.completeSnapshot k c n).bus = s.bus ∧
    (s.completeSnapshot k c n).backAsserted = s.backAsserted ∧
    (s.completeSnapshot k c n).lines = s.lines ∧
    (s.completeSnapshot k c n).notify = s.notify ∧
    (s.completeSnapshot k c n).loader = s.loader ∧
    (s.completeSnapshot k c n).timebase = s.timebase ∧
    (s.completeSnapshot k c n).pending = s.pending ∧
    (∀ q : PointNo, (s.completeSnapshot k c n).point q = s.point q) ∧
    (∀ d : ClassNo, (s.completeSnapshot k c n).classState d = s.classState d) ∧
    (∀ t : RegionNo, (s.completeSnapshot k c n).region t = s.region t) ∧
    (∀ d : ClassSel, (s.completeSnapshot k c n).chain d = s.chain d) ∧
    (∀ u : Level, (s.completeSnapshot k c n).noticeSet u = s.noticeSet u) ∧
    (s.completeSnapshot k c n).loading = s.loading := by
  unfold completeSnapshot
  simp

/-- A grant changes the request table, the last requester granted and the phase only (R123). -/
theorem grantNext_bus :
    s.grantNext.bus.regions = s.bus.regions ∧ s.grantNext.bus.pins = s.bus.pins ∧
    (∀ r, s.grantNext.region r = s.region r) := by
  unfold grantNext
  split
  · split
    · split
      · refine ⟨?_, ?_, fun r => ?_⟩ <;> simp [grantTo, region]
      · exact ⟨rfl, rfl, fun _ => rfl⟩
    · exact ⟨rfl, rfl, fun _ => rfl⟩
  all_goals exact ⟨rfl, rfl, fun _ => rfl⟩

theorem grantTo_eq (r : Requester) (q : Request) : ∃ b, s.grantTo r q = { s with bus := b } := by
  rcases r with _ | (_ | _) <;> exact ⟨_, rfl⟩

/-- A grant changes nothing outside the backplane engine. -/
theorem grantNext_eq : ∃ b, s.grantNext = { s with bus := b } := by
  unfold grantNext
  split
  · split
    · split
      · exact grantTo_eq s _ _
      · exact ⟨s.bus, rfl⟩
    · exact ⟨s.bus, rfl⟩
  all_goals exact ⟨s.bus, rfl⟩

/-- Outside IDLE no request is granted (R122, R123). -/
theorem grantNext_busy (h : s.bus.phase ≠ .idle) : s.grantNext = s := by
  unfold grantNext
  split
  · next hi => exact absurd hi h
  all_goals rfl

@[simp] theorem grantNext_keeps :
    (s.grantNext).points = s.points ∧
    (s.grantNext).chains = s.chains ∧
    (s.grantNext).freeSegs = s.freeSegs ∧
    (s.grantNext).segWords = s.segWords ∧
    (s.grantNext).lastTaken = s.lastTaken ∧
    (s.grantNext).primary = s.primary ∧
    (s.grantNext).maint = s.maint ∧
    (s.grantNext).spi = s.spi ∧
    (s.grantNext).sdo = s.sdo ∧
    (s.grantNext).pointer = s.pointer ∧
    (s.grantNext).i2cAddr = s.i2cAddr ∧
    (s.grantNext).i2cWriteOpen = s.i2cWriteOpen ∧
    (s.grantNext).scan = s.scan ∧
    (s.grantNext).backAsserted = s.backAsserted ∧
    (s.grantNext).lines = s.lines ∧
    (s.grantNext).notify = s.notify ∧
    (s.grantNext).loader = s.loader ∧
    (s.grantNext).timebase = s.timebase ∧
    (s.grantNext).pending = s.pending ∧
    (∀ q : PointNo, (s.grantNext).point q = s.point q) ∧
    (∀ o : Port, (s.grantNext).port o = s.port o) ∧
    (∀ o : Port, (s.grantNext).slot o = s.slot o) ∧
    (∀ o : Port, (s.grantNext).busyWith o = s.busyWith o) ∧
    (∀ d : ClassNo, (s.grantNext).classState d = s.classState d) ∧
    (∀ d : ClassSel, (s.grantNext).chain d = s.chain d) ∧
    (∀ u : Level, (s.grantNext).noticeSet u = s.noticeSet u) ∧
    (s.grantNext).loading = s.loading := by
  obtain ⟨b, hb⟩ := grantNext_eq s
  rw [hb]
  exact ⟨rfl, rfl, rfl, rfl, rfl, rfl, rfl, rfl, rfl, rfl, rfl, rfl, rfl, rfl, rfl, rfl, rfl, rfl, rfl, fun _ => rfl, fun _ => rfl, fun _ => rfl, fun _ => rfl, fun _ => rfl, fun _ => rfl, fun _ => rfl, rfl⟩

@[simp] theorem placeRequest_keeps (r : Requester) (n : PointNo) (f : Bool) :
    (s.placeRequest r n f).points = s.points ∧
    (s.placeRequest r n f).chains = s.chains ∧
    (s.placeRequest r n f).freeSegs = s.freeSegs ∧
    (s.placeRequest r n f).segWords = s.segWords ∧
    (s.placeRequest r n f).lastTaken = s.lastTaken ∧
    (s.placeRequest r n f).primary = s.primary ∧
    (s.placeRequest r n f).maint = s.maint ∧
    (s.placeRequest r n f).spi = s.spi ∧
    (s.placeRequest r n f).sdo = s.sdo ∧
    (s.placeRequest r n f).pointer = s.pointer ∧
    (s.placeRequest r n f).i2cAddr = s.i2cAddr ∧
    (s.placeRequest r n f).i2cWriteOpen = s.i2cWriteOpen ∧
    (s.placeRequest r n f).scan = s.scan ∧
    (s.placeRequest r n f).backAsserted = s.backAsserted ∧
    (s.placeRequest r n f).lines = s.lines ∧
    (s.placeRequest r n f).notify = s.notify ∧
    (s.placeRequest r n f).loader = s.loader ∧
    (s.placeRequest r n f).timebase = s.timebase ∧
    (s.placeRequest r n f).pending = s.pending ∧
    (∀ q : PointNo, (s.placeRequest r n f).point q = s.point q) ∧
    (∀ o : Port, (s.placeRequest r n f).port o = s.port o) ∧
    (∀ o : Port, (s.placeRequest r n f).slot o = s.slot o) ∧
    (∀ o : Port, (s.placeRequest r n f).busyWith o = s.busyWith o) ∧
    (∀ d : ClassNo, (s.placeRequest r n f).classState d = s.classState d) ∧
    (∀ d : ClassSel, (s.placeRequest r n f).chain d = s.chain d) ∧
    (∀ u : Level, (s.placeRequest r n f).noticeSet u = s.noticeSet u) ∧
    (s.placeRequest r n f).loading = s.loading := by
  unfold placeRequest
  simp

@[simp] theorem requestAccess_keeps (p : Port) (n : PointNo) (f : Bool) :
    (s.requestAccess p n f).points = s.points ∧
    (s.requestAccess p n f).chains = s.chains ∧
    (s.requestAccess p n f).freeSegs = s.freeSegs ∧
    (s.requestAccess p n f).segWords = s.segWords ∧
    (s.requestAccess p n f).lastTaken = s.lastTaken ∧
    (s.requestAccess p n f).spi = s.spi ∧
    (s.requestAccess p n f).sdo = s.sdo ∧
    (s.requestAccess p n f).pointer = s.pointer ∧
    (s.requestAccess p n f).i2cAddr = s.i2cAddr ∧
    (s.requestAccess p n f).i2cWriteOpen = s.i2cWriteOpen ∧
    (s.requestAccess p n f).scan = s.scan ∧
    (s.requestAccess p n f).backAsserted = s.backAsserted ∧
    (s.requestAccess p n f).lines = s.lines ∧
    (s.requestAccess p n f).notify = s.notify ∧
    (s.requestAccess p n f).loader = s.loader ∧
    (s.requestAccess p n f).timebase = s.timebase ∧
    (s.requestAccess p n f).pending = s.pending ∧
    (∀ q : PointNo, (s.requestAccess p n f).point q = s.point q) ∧
    (∀ d : ClassNo, (s.requestAccess p n f).classState d = s.classState d) ∧
    (∀ d : ClassSel, (s.requestAccess p n f).chain d = s.chain d) ∧
    (∀ u : Level, (s.requestAccess p n f).noticeSet u = s.noticeSet u) ∧
    (s.requestAccess p n f).loading = s.loading := by
  unfold requestAccess
  simp

@[simp] theorem busIdle_keeps :
    (s.busIdle).points = s.points ∧
    (s.busIdle).chains = s.chains ∧
    (s.busIdle).freeSegs = s.freeSegs ∧
    (s.busIdle).segWords = s.segWords ∧
    (s.busIdle).lastTaken = s.lastTaken ∧
    (s.busIdle).primary = s.primary ∧
    (s.busIdle).maint = s.maint ∧
    (s.busIdle).spi = s.spi ∧
    (s.busIdle).sdo = s.sdo ∧
    (s.busIdle).pointer = s.pointer ∧
    (s.busIdle).i2cAddr = s.i2cAddr ∧
    (s.busIdle).i2cWriteOpen = s.i2cWriteOpen ∧
    (s.busIdle).scan = s.scan ∧
    (s.busIdle).backAsserted = s.backAsserted ∧
    (s.busIdle).lines = s.lines ∧
    (s.busIdle).notify = s.notify ∧
    (s.busIdle).loader = s.loader ∧
    (s.busIdle).timebase = s.timebase ∧
    (s.busIdle).pending = s.pending ∧
    (∀ q : PointNo, (s.busIdle).point q = s.point q) ∧
    (∀ o : Port, (s.busIdle).port o = s.port o) ∧
    (∀ o : Port, (s.busIdle).slot o = s.slot o) ∧
    (∀ o : Port, (s.busIdle).busyWith o = s.busyWith o) ∧
    (∀ d : ClassNo, (s.busIdle).classState d = s.classState d) ∧
    (∀ d : ClassSel, (s.busIdle).chain d = s.chain d) ∧
    (∀ u : Level, (s.busIdle).noticeSet u = s.noticeSet u) ∧
    (s.busIdle).loading = s.loading := by
  unfold busIdle
  simp

@[simp] theorem abandonAccess_keeps (p : Port) :
    (s.abandonAccess p).points = s.points ∧
    (s.abandonAccess p).chains = s.chains ∧
    (s.abandonAccess p).freeSegs = s.freeSegs ∧
    (s.abandonAccess p).segWords = s.segWords ∧
    (s.abandonAccess p).lastTaken = s.lastTaken ∧
    (s.abandonAccess p).primary = s.primary ∧
    (s.abandonAccess p).maint = s.maint ∧
    (s.abandonAccess p).spi = s.spi ∧
    (s.abandonAccess p).sdo = s.sdo ∧
    (s.abandonAccess p).pointer = s.pointer ∧
    (s.abandonAccess p).i2cAddr = s.i2cAddr ∧
    (s.abandonAccess p).i2cWriteOpen = s.i2cWriteOpen ∧
    (s.abandonAccess p).scan = s.scan ∧
    (s.abandonAccess p).backAsserted = s.backAsserted ∧
    (s.abandonAccess p).lines = s.lines ∧
    (s.abandonAccess p).notify = s.notify ∧
    (s.abandonAccess p).loader = s.loader ∧
    (s.abandonAccess p).timebase = s.timebase ∧
    (s.abandonAccess p).pending = s.pending ∧
    (∀ q : PointNo, (s.abandonAccess p).point q = s.point q) ∧
    (∀ o : Port, (s.abandonAccess p).port o = s.port o) ∧
    (∀ o : Port, (s.abandonAccess p).slot o = s.slot o) ∧
    (∀ o : Port, (s.abandonAccess p).busyWith o = s.busyWith o) ∧
    (∀ d : ClassNo, (s.abandonAccess p).classState d = s.classState d) ∧
    (∀ d : ClassSel, (s.abandonAccess p).chain d = s.chain d) ∧
    (∀ u : Level, (s.abandonAccess p).noticeSet u = s.noticeSet u) ∧
    (s.abandonAccess p).loading = s.loading := by
  unfold abandonAccess
  dsimp only
  split <;> simp

@[simp] theorem freePoint_keeps (n : PointNo) :
    (s.freePoint n).chains = s.chains ∧
    (s.freePoint n).segWords = s.segWords ∧
    (s.freePoint n).lastTaken = s.lastTaken ∧
    (s.freePoint n).primary = s.primary ∧
    (s.freePoint n).maint = s.maint ∧
    (s.freePoint n).spi = s.spi ∧
    (s.freePoint n).sdo = s.sdo ∧
    (s.freePoint n).pointer = s.pointer ∧
    (s.freePoint n).i2cAddr = s.i2cAddr ∧
    (s.freePoint n).i2cWriteOpen = s.i2cWriteOpen ∧
    (s.freePoint n).scan = s.scan ∧
    (s.freePoint n).bus = s.bus ∧
    (s.freePoint n).backAsserted = s.backAsserted ∧
    (s.freePoint n).lines = s.lines ∧
    (s.freePoint n).loader = s.loader ∧
    (s.freePoint n).timebase = s.timebase ∧
    (s.freePoint n).pending = s.pending ∧
    (∀ o : Port, (s.freePoint n).port o = s.port o) ∧
    (∀ o : Port, (s.freePoint n).slot o = s.slot o) ∧
    (∀ o : Port, (s.freePoint n).busyWith o = s.busyWith o) ∧
    (∀ d : ClassNo, (s.freePoint n).classState d = s.classState d) ∧
    (∀ t : RegionNo, (s.freePoint n).region t = s.region t) ∧
    (∀ d : ClassSel, (s.freePoint n).chain d = s.chain d) ∧
    (s.freePoint n).loading = s.loading := by
  unfold freePoint
  simp

@[simp] theorem retireWaiter_keeps (n : PointNo) (p : Port) :
    (s.retireWaiter n p).points = s.points ∧
    (s.retireWaiter n p).chains = s.chains ∧
    (s.retireWaiter n p).freeSegs = s.freeSegs ∧
    (s.retireWaiter n p).segWords = s.segWords ∧
    (s.retireWaiter n p).lastTaken = s.lastTaken ∧
    (s.retireWaiter n p).spi = s.spi ∧
    (s.retireWaiter n p).sdo = s.sdo ∧
    (s.retireWaiter n p).pointer = s.pointer ∧
    (s.retireWaiter n p).i2cAddr = s.i2cAddr ∧
    (s.retireWaiter n p).i2cWriteOpen = s.i2cWriteOpen ∧
    (s.retireWaiter n p).scan = s.scan ∧
    (s.retireWaiter n p).backAsserted = s.backAsserted ∧
    (s.retireWaiter n p).lines = s.lines ∧
    (s.retireWaiter n p).notify = s.notify ∧
    (s.retireWaiter n p).loader = s.loader ∧
    (s.retireWaiter n p).timebase = s.timebase ∧
    (s.retireWaiter n p).pending = s.pending ∧
    (∀ q : PointNo, (s.retireWaiter n p).point q = s.point q) ∧
    (∀ d : ClassNo, (s.retireWaiter n p).classState d = s.classState d) ∧
    (∀ d : ClassSel, (s.retireWaiter n p).chain d = s.chain d) ∧
    (∀ u : Level, (s.retireWaiter n p).noticeSet u = s.noticeSet u) ∧
    (s.retireWaiter n p).loading = s.loading := by
  unfold retireWaiter
  split
  · split_ifs <;> simp
  · simp

@[simp] theorem retirePoint_keeps (n : PointNo) :
    (s.retirePoint n).segWords = s.segWords ∧
    (s.retirePoint n).lastTaken = s.lastTaken ∧
    (s.retirePoint n).spi = s.spi ∧
    (s.retirePoint n).sdo = s.sdo ∧
    (s.retirePoint n).pointer = s.pointer ∧
    (s.retirePoint n).i2cAddr = s.i2cAddr ∧
    (s.retirePoint n).i2cWriteOpen = s.i2cWriteOpen ∧
    (s.retirePoint n).backAsserted = s.backAsserted ∧
    (s.retirePoint n).lines = s.lines ∧
    (s.retirePoint n).loader = s.loader ∧
    (s.retirePoint n).timebase = s.timebase ∧
    (s.retirePoint n).pending = s.pending ∧
    (s.retirePoint n).loading = s.loading := by
  unfold retirePoint
  dsimp only
  split_ifs <;> simp

@[simp] theorem defineCore_keeps (n : PointNo) (df : Definition) :
    (s.defineCore n df).lastTaken = s.lastTaken ∧
    (s.defineCore n df).primary = s.primary ∧
    (s.defineCore n df).maint = s.maint ∧
    (s.defineCore n df).spi = s.spi ∧
    (s.defineCore n df).sdo = s.sdo ∧
    (s.defineCore n df).pointer = s.pointer ∧
    (s.defineCore n df).i2cAddr = s.i2cAddr ∧
    (s.defineCore n df).i2cWriteOpen = s.i2cWriteOpen ∧
    (s.defineCore n df).scan = s.scan ∧
    (s.defineCore n df).bus = s.bus ∧
    (s.defineCore n df).backAsserted = s.backAsserted ∧
    (s.defineCore n df).lines = s.lines ∧
    (s.defineCore n df).loader = s.loader ∧
    (s.defineCore n df).timebase = s.timebase ∧
    (s.defineCore n df).pending = s.pending ∧
    (∀ o : Port, (s.defineCore n df).port o = s.port o) ∧
    (∀ o : Port, (s.defineCore n df).slot o = s.slot o) ∧
    (∀ o : Port, (s.defineCore n df).busyWith o = s.busyWith o) ∧
    (∀ d : ClassNo, (s.defineCore n df).classState d = s.classState d) ∧
    (∀ t : RegionNo, (s.defineCore n df).region t = s.region t) ∧
    (s.defineCore n df).loading = s.loading := by
  unfold defineCore
  simp

/-! ### Causes and notice sets -/

/-- CAUSES of the point takes the value; every other field and record stays (R6). -/
theorem point_setCauses (p q : PointNo) (c : Byte) :
    (s.setCauses p c).point q = if p = q then { s.point q with causes := c } else s.point q := by
  unfold setCauses
  dsimp only
  split_ifs <;> simp_all

/-- Membership after a change of CAUSES, where sets and causes agreed before (R148, R149). -/
theorem mem_noticeSet_setCauses (p : PointNo) (c : Byte)
    (h : ∀ n v, n ∈ s.noticeSet v ↔ (s.point n).causes ≠ 0 ∧ (s.point n).level = v) (n : PointNo) (v : Level) :
    n ∈ (s.setCauses p c).noticeSet v ↔
      ((s.setCauses p c).point n).causes ≠ 0 ∧ ((s.setCauses p c).point n).level = v := by
  rw [point_setCauses]
  unfold setCauses
  dsimp only
  by_cases hv : (s.point p).level = v
  · subst hv
    split_ifs <;> simp_all [enterNotice, leaveNotice]
    all_goals grind
  · split_ifs <;> simp_all [enterNotice, leaveNotice]

/-- The sets stay strictly ascending under a change of CAUSES (R148). -/
theorem pairwise_noticeSet_setCauses (p : PointNo) (c : Byte) (h : ∀ v, (s.noticeSet v).Pairwise (· < ·)) (v : Level) :
    ((s.setCauses p c).noticeSet v).Pairwise (· < ·) := by
  unfold setCauses
  dsimp only
  by_cases hv : (s.point p).level = v
  · subst hv
    split_ifs
    · simpa using h _
    · simpa [enterNotice] using pairwise_insertAsc p (h _)
    · simpa [leaveNotice] using (h _).filter _
    · simpa using h _
  · split_ifs <;> simp_all [enterNotice, leaveNotice]

/-! ### Framing -/

/-- A word the port does not take, or takes while LOADING, changes nothing (R164, R165, R170). -/
theorem portWrite_ignored (v : Via) (a : BitVec 7) (f : State → State)
    (h : s.takesWord v false a = false ∨ s.loading = true) : s.portWrite v a f = s := by
  rcases h with h | h <;> simp [portWrite, h]

/-- A word the port takes has its effect (R166). -/
theorem portWrite_taken (v : Via) (a : BitVec 7) (f : State → State)
    (h : s.takesWord v false a = true) (hl : s.loading = false) : s.portWrite v a f = f s := by
  simp [portWrite, h, hl]

/-- The table engine takes the turn's command and no other (R4). -/
theorem takenCommand_eq_some {s : State} {p : Port} {name : CmdName} {c : Command} :
    takenCommand s p name = some c ↔
      s.tableTurn = some (.slot p) ∧ s.busyWith p = some c ∧ CmdName.ofCode c.code = name := by
  unfold takenCommand
  split_ifs with h <;> simp [h, Option.filter_eq_some_iff]

/-- While LOADING the table engine takes nothing from slots and scan engine (R4). -/
theorem tableTurn_loading (h : s.loading = true) : s.tableTurn = none := by simp [tableTurn, h]

end Sys2Proof.Machine.State

namespace Sys2Proof.Machine

/-- A taken command has its effect, the slot counting as taken last (R4). -/
theorem onCommand_taken {p : Port} {name : CmdName} {act : Command → State → State} {s : State} {c : Command}
    (h : takenCommand s p name = some c) : onCommand p name act s = .next (act c { s with lastTaken := .slot p }) := by
  simp [onCommand, h, done]

/-- A command that is not next is not taken (log 2, log 3). -/
theorem onCommand_notTaken {p : Port} {name : CmdName} {act : Command → State → State} {s : State}
    (h : takenCommand s p name = none) : onCommand p name act s = .next s := by
  simp [onCommand, h, done]

end Sys2Proof.Machine
end

