-- ==== Sys2Proof/Laws/Commands.lean ====
section
/-! SUPPORT. What the shared parts of the rows answer: completions and refusals of a command, the end of a beat, the checks of R3, and the words of an EEPROM transaction. -/

namespace Sys2Proof.Machine

namespace State

/-! ### Commands -/

/-- A snapshot depends on the records and the segment words alone (R41). -/
theorem snapshot_congr {s t : State} (h₁ : t.points = s.points) (h₂ : t.segWords = s.segWords) (n : PointNo) :
    t.snapshot n = s.snapshot n := by
  unfold snapshot blockWord point
  rw [h₁, h₂]

/-- A command that completes with a snapshot, after work that left both ports alone (R31, R41). -/
theorem completed_completeSnapshot (s u : State) (p : Port) (code : ResultCode) (n : PointNo)
    (hl : u.lastTaken = .slot p) (hp : u.port p = s.port p) (ho : u.port (otherPort p) = s.port (otherPort p)) :
    s.Completed (u.completeSnapshot p code n) p code ((u.completeSnapshot p code n).snapshot n) := by
  have hs : (u.completeSnapshot p code n).snapshot n = u.snapshot n := snapshot_congr (by simp) (by simp) n
  refine ⟨by simp [hl], ?_, ?_⟩
  · rw [hs]
    cases p <;> simp_all [completeSnapshot, complete, setSlot, setPort, port]
  · cases p <;> simp_all [completeSnapshot, complete, setSlot, setPort, port, otherPort]

/-- A command that only completes with a zero result area is refused with its code (R31, R33). -/
theorem refusedWith_of_completeZero {s : State} {p : Port} {code : ResultCode} {i : Instr}
    (h : exec i s = .next ({ s with lastTaken := .slot p }.completeZero p code)) : s.RefusedWith i p code := by
  refine ⟨_, h, ⟨by simp, ?_, ?_⟩, ?_⟩ <;> cases p <;> rfl

/-- A command the table engine takes next, as the rows find it (R4). -/
theorem NextCommand.taken {s : State} {p : Port} {name : CmdName} {c : Command} (h : s.NextCommand p name c) :
    takenCommand s p name = some c := takenCommand_eq_some.mpr h

/-- The checks of R33 on the point of a command that respects holds. -/
theorem refusal_eq_none {s : State} {p : Port} {n : PointNo} {holds : Bool} (hd : (s.point n).state.isDefined = true)
    (hh : holds = true → (s.point n).holder ≠ some (otherPort p)) : s.refusal p n holds = none := by
  cases holds <;> simp_all [refusal, heldAgainst]

/-- `waits` is `WaitsIn` as a check (R32). -/
theorem waits_iff (s : State) (p : Port) (name : CmdName) (ph : CmdPhase) (n : PointNo) :
    s.waits p name ph n = true ↔ s.WaitsIn p name ph n := by
  unfold waits WaitsIn
  cases s.busyWith p <;> simp [and_assoc]

/-- What waits on a port is a matter of that port alone. -/
theorem waitsIn_congr {s t : State} {p : Port} (h : t.port p = s.port p) (name : CmdName) (ph : CmdPhase) (n : PointNo) :
    t.WaitsIn p name ph n ↔ s.WaitsIn p name ph n := by
  rw [← waits_iff, ← waits_iff]
  cases p <;> simp_all [waits, busyWith, slot, port]

/-- A busy command enters its next phase, and nothing else of its port changes (R32). -/
theorem movesTo_enterPhase {s : State} {p : Port} {c : Command} (ph : CmdPhase) (h : s.busyWith p = some c) :
    s.MovesTo (s.enterPhase p ph) p ph := by
  refine ⟨c, h, ?_⟩
  cases p <;> simp [enterPhase, h, setSlot, setPort, port]

/-- Outside IDLE a slot's request waits in its entry, its command in WAIT_GRANT (R122). -/
theorem requestAccess_of_busy {s : State} (p : Port) (n : PointNo) (forWrite : Bool) (h : s.bus.phase ≠ .idle) :
    s.requestAccess p n forWrite = (s.enterPhase p .waitGrant).setEntry (.slot p) (some ⟨n, forWrite⟩) := by
  unfold requestAccess placeRequest
  exact grantNext_busy _ (by cases p <;> simpa [setEntry] using h)

/-! ### Beats -/

/-- The end of a beat is `endBeat`, on the state with the level of BACK_N as the event shows it (R132, R133). -/
theorem BeatEnds.exec_eq {s : State} {i : Instr} {g : Grant} {a : Access} {bd : Word} (h : s.BeatEnds i g a bd) :
    exec i s = .next ({ s with
      backAsserted := if i = Instr.beatAcknowledge bd then true else s.backAsserted }.endBeat g a bd) := by
  obtain ⟨hp, ⟨rfl, hs, -⟩ | ⟨rfl, hs, -, hc⟩⟩ := h
  · show execBeatAcknowledge bd s = _
    simp [execBeatAcknowledge, hp, hs, done]
  · show execSelfPacedBeatEnd bd s = _
    simp [execSelfPacedBeatEnd, hp, hs, hc, done]

/-- `beginBeat` begins a beat as R131 to R133 say. -/
theorem beatBegins_beginBeat (s : State) (g : Grant) (a : Access) (op : BeatOp) :
    (s.beginBeat g a op).BeatBegins g a op.isWrite op.isSecond := by
  refine ⟨firstStage a.cap.pacing s.backAsserted, rfl, rfl, ?_⟩
  simp only [beginBeat, setPhase, setPins, strobePins, addressPins, beatAddress, Access.lowLane, Access.highLane, Access.oneLane,
    Access.odd]
  generalize firstStage a.cap.pacing s.backAsserted = st
  cases st <;> cases op.isWrite <;> cases a.kind <;> cases a.width <;> cases a.offset.getLsbD 0 <;> simp <;> rfl

/-- `reportAccess` ends the access with its completion (R131, R136). -/
theorem accessEnds_reportAccess (s : State) (g : Grant) (a : Access) (o : Outcome) :
    s.AccessEnds (s.reportAccess g a o) g (a.reported o) (completionOf a o) := ⟨rfl, rfl⟩

/-- The engine's next beat, or the end of the access, changes the engine's phase and pins only. -/
theorem nextBeat_frame (s : State) (g : Grant) (a : Access) :
    s.nextBeat g a = { s with bus := { s.bus with
      phase := (s.nextBeat g a).bus.phase, pins := (s.nextBeat g a).bus.pins } } := by
  unfold nextBeat
  split <;> rfl

/-- The end of a beat changes the engine's phase and pins only. -/
theorem endBeat_frame (s : State) (g : Grant) (a : Access) (bd : Word) :
    s.endBeat g a bd = { s with bus := { s.bus with
      phase := (s.endBeat g a bd).bus.phase, pins := (s.endBeat g a bd).bus.pins } } := by
  unfold endBeat
  split
  · exact nextBeat_frame s g _
  · rfl

/-! ### The attention unit and the loader's transactions -/

/-- `keepFlag` sets the flag of an asserted line's region and nothing else (R143). -/
theorem keepFlag_eq (s : State) (l : LineNo) :
    s.keepFlag l = if (s.line l).asserted then s.setPendingFlag (s.line l).region true else s := rfl

/-- A transaction is the loader's present one exactly when it has the EEPROM's address and the present start (R178). -/
theorem makes_iff (s : State) (r : EepromRead) :
    s.makes r = true ↔ r.device = 0x50 ∧ s.startAddress = some r.start := by
  simp [makes, Config.eepromAddress]

end State

/-! ### Definitions (R3) -/

/-- A block whose fields are valid gives its definition. -/
theorem RawDef.check_of_valid {raw : RawDef} {m : Option Kind} (h : raw.FieldsValid m) :
    ∃ d, raw.check m = some d ∧ raw.Gives d := by
  obtain ⟨k, hk, hm, ⟨c, hc⟩, hr, hio, hbl, h₁, h₂, h₃, hlim⟩ := h
  have hmm : (m.isNone || m == some k) = true := by rcases hm with h | h <;> simp [h]
  cases k
  · obtain ⟨w, hw, ho⟩ := hio (by simp)
    have hn : raw.numbersOk .input w = true := by
      simp [RawDef.numbersOk, accessBytes, ho, h₁, h₂, h₃]
      refine ⟨⟨by omega, by omega⟩, ?_⟩
      cases hl : raw.limits <;> simp
      exact hlim rfl hl
    simp [RawDef.check, hk, hc, RawDef.usedWidth, hw, hr, hn, hmm, RawDef.Gives, RawDef.typed]
    split <;> simp
  · obtain ⟨w, hw, ho⟩ := hio (by simp)
    have hn : raw.numbersOk .output w = true := by
      simp [RawDef.numbersOk, accessBytes, ho, h₁, h₂, h₃]
      omega
    simp [RawDef.check, hk, hc, RawDef.usedWidth, hw, hr, hn, hmm, RawDef.Gives, RawDef.typed]
  · obtain ⟨ho, hb₁, hb₂⟩ := hbl rfl
    have hn : raw.numbersOk .block .w16 = true := by
      simp [RawDef.numbersOk, accessBytes, ho, h₁, h₂, h₃, hb₁, hb₂]
      omega
    simp [RawDef.check, hk, hc, RawDef.usedWidth, hr, hn, hmm, RawDef.Gives, RawDef.typed]

/-- A block that gives a definition has valid fields. -/
theorem RawDef.valid_of_check {raw : RawDef} {m : Option Kind} {d : Definition} (h : raw.check m = some d) :
    raw.FieldsValid m := by
  unfold RawDef.check at h
  split at h
  · simp at h
  next k hk =>
  split at h
  on_goal 2 => simp at h
  next w c hw hc =>
  split at h
  on_goal 2 => simp at h
  next hr =>
  split at h
  on_goal 2 => simp at h
  next hok =>
  simp [RawDef.numbersOk] at hok
  refine ⟨k, hk, ?_, ⟨c, hc⟩, hr, fun hkb => ⟨w, ?_, ?_⟩, ?_, by omega, by omega, by omega, ?_⟩
  · rcases hok.2 with h | h
    · exact .inl (by simpa using h)
    · exact .inr h
  · cases k <;> simp [RawDef.usedWidth] at hw hkb <;> exact hw
  · cases k <;> simp [accessBytes] at hok hkb <;> omega
  · rintro rfl
    simp [accessBytes] at hok
    omega
  · rintro rfl hl
    simp [hl] at hok
    exact hok.1.2

/-- The size of the pool's demand and of a window, as the rules write them (R104, R118). -/
theorem State.regionFits_iff (s : State) (d : Definition) :
    s.regionFits d = true ↔ (s.region d.region).enable = true ∧
      d.offset.toNat + (match d.kind with | .input | .output => d.width.bytes | .block => 2) ≤
        256 * 2 ^ (s.region d.region).sizeCode.toNat := by
  simp only [State.regionFits, accessBytes, sizeBytes, Bool.and_eq_true]
  cases d.kind <;> exact and_congr_right fun _ => decide_eq_true_iff

/-! ### Words of an EEPROM transaction (R176) -/

/-- Two bytes make a word, and an odd byte at the end makes none. -/
theorem length_wordsOf (bs : List Byte) : (wordsOf bs).length = bs.length / 2 := by
  fun_induction wordsOf bs with
  | case1 a b r ih =>
    simp only [List.length_cons, ih]
    omega
  | case2 l hl =>
    match l with
    | [] => rfl
    | [x] => simp
    | a :: b :: r => exact absurd rfl (hl a b r)

/-- A transaction with bytes enough delivers its words (R178). -/
theorem delivered_bytes {n : Nat} {bs : List Byte} (h : 2 * n ≤ bs.length) :
    delivered n (.bytes bs) = .words ((wordsOf bs).take n) := by
  have := length_wordsOf bs
  simp [delivered]
  omega

/-- The 16-bit sum is the list's sum. -/
theorem sumWords_eq_sum (ws : List Word) : sumWords ws = ws.sum := by
  have h : ∀ a, ws.foldl (· + ·) a = a + ws.sum := by
    induction ws with
    | nil => simp
    | cons x xs ih => intro a; simp [ih, BitVec.add_assoc]
  simpa [sumWords] using h 0

end Sys2Proof.Machine
end

