-- ==== Sys2Proof/Tests/Slice0.lean ====
section
/-! SUPPORT. Tests of the model: ill-formed terms refused, one-step checks against the spec's worked examples, and for every statement of Obligations.lean a state and operands that meet its hypotheses. -/

namespace Sys2Proof.Tests

/- One theorem at a time: each `decide +kernel` waits for the declarations before it, and many waiting at once, each on a thread
of its own, take memory. -/
set_option Elab.async false

open Sys2Proof Sys2Proof.Machine Sys2Proof.Machine.State

/-! ### Well-formedness refuses each ill-formed term -/

theorem test_i2c_target_is_one_of_the_two :
    (Via.i2c 0x4C).wellFormed = true ∧ (Via.i2c 0x4D).wellFormed = true ∧ (Via.i2c 0x4B).wellFormed = false ∧
    (Instr.cmdWrite (.i2c 0x50) 0).wellFormed = false ∧ (Instr.claim (.i2c 0)).wellFormed = false := by decide

theorem test_register_write_names_no_own_behaviour :
    (Instr.registerWrite .spi 0x05 0).wellFormed = true ∧ (Instr.registerWrite .spi 0x7F 0).wellFormed = true ∧
    (Instr.registerWrite .spi 0x03 0).wellFormed = false ∧ (Instr.registerWrite .spi 0x10 0).wellFormed = false := by
  decide

/-- The answer to a transaction with the EEPROM from this byte address. -/
def eeprom (start : Word) (answer : EepromAnswer) : EepromRead := ⟨0x50, start, answer⟩

theorem test_eeprom_transactions_have_their_bytes :
    (Instr.verifyPass (eeprom 0 (.bytes [0xFF, 0xFF]))).wellFormed = true ∧
    (Instr.verifyPass (eeprom 0 (.bytes [0xFF]))).wellFormed = false ∧
    (Instr.verifyPass (eeprom 0 (.bytes []))).wellFormed = false ∧
    (Instr.loadHeader (eeprom 0 (.bytes [0x61]))).wellFormed = false ∧
    (Instr.loadRegionRecord (eeprom 24 (.bytes (List.replicate 14 0)))).wellFormed = false ∧
    (Instr.loadPointRecord (eeprom 24 (.bytes (List.replicate 12 0)))).wellFormed = false ∧
    (Instr.loadChecksum (eeprom 24 (.bytes [0, 0, 0]))).wellFormed = false ∧
    (Instr.loadChecksum (eeprom 24 .failed)).wellFormed = true := by decide

theorem test_eeprom_transactions_have_its_address :
    (Instr.loadChecksum ⟨0x51, 24, .failed⟩).wellFormed = false ∧
    (Instr.verifyPass ⟨0x4C, 0, .bytes [0xFF, 0xFF]⟩).wellFormed = false ∧
    (Instr.loadHeader ⟨0x50, 1, .bytes (List.replicate 24 0)⟩).wellFormed = false := by decide

theorem test_no_word_spells_a_command : decodeTableWord 16 0x0100 = none := by decide

/-! ### Small states -/

/-- The state an event leads to. -/
def after (i : Instr) (s : State) : State :=
  match exec i s with
  | .next t => t
  | .fault _ | .refused _ => s

/-- The part after a load of a blank EEPROM: every block at its cold reset values, LOADING clear. -/
def up : State := { State.reset with loader := { Loader.reset with state := .done } }

/-- A command with these parameter words, the others 0. -/
def cmdOf (code operand : Byte) (ps : List Word) (ph : CmdPhase) : Command :=
  ⟨code, operand, tabulate 16 fun i => ps.getD i 0, ph⟩

/-- The slot of `p` BUSY with `c`. -/
def busy (s : State) (p : Port) (c : Command) : State := s.setSlot p { s.slot p with state := .busy c }

/-- An SPI transfer in progress with this direction and register. -/
def spiAt (s : State) (isRead : Bool) (addr : BitVec 7) : State := { s with spi := .active isRead addr }

/-- `up` with the one record `r`, linked alone on the chain of its CLASS, its segments off the free list. -/
def one (n : PointNo) (r : Point) : State :=
  { up with
    points := up.points.set n.val r
    chains := up.chains.set (chainIndex r.cls).val ⟨some n, some n, 1⟩
    freeSegs := (List.finRange 96).filter (· ∉ r.segments)
    notify := { up.notify with
      sets := if r.causes = 0 then up.notify.sets else up.notify.sets.set r.level.val [n] } }

/-- An enabled self-paced region of 4096 bytes at BASE 0. -/
def area4k : Region := ⟨true, 0, 4, false, false, .lowFirst, .selfPaced, 5, 0⟩

/-- The state with `area4k` as region 0. -/
def inArea (s : State) : State := s.setRegion 0 area4k

/-- Point 64 of section 4.9. -/
def meter : Point := { Point.free with
  state := .active, kind := .input, width := .w16, signed := true, cls := some 1, level := 2, offset := 0x10,
  limits := true, low := -200, high := 800, hyst := 50, deadband := 25, staleAt := 3, faultAt := 6,
  causeEn := 0x03, value := 100, reference := 100 }

/-- Point 90 of section 4.10. -/
def relay : Point := { Point.free with
  state := .active, kind := .output, width := .w32, cls := none, level := 4, offset := 0x20, verify := true,
  staleAt := 1, faultAt := 15, causeEn := 0xA4, shadow := 0x00012344, value := 0x00012344 }

/-- A BLOCK point of 9 words in segments 0 and 1 (section 5.6). -/
def burst : Point := { Point.free with
  state := .unread, kind := .block, width := .w16, cls := some 3, level := 7, offset := 0x40, staleAt := 15, faultAt := 15,
  blockLen := 9, segments := [0, 1], causeEn := 0x41 }

/-- A grant of the scan engine for point `n`. -/
def scanGrant (n : PointNo) : Grant := ⟨n, .scan, false, true⟩

/-- Consistency of a state with one record out of FREE. -/
theorem consistent_of_one {s : State} {n : PointNo} (hf : ∀ m, m ≠ n → s.point m = Point.free)
    (hd : (s.point n).state.isDefined = true)
    (hc : ∀ c, s.chain c = if c = (s.point n).cls then ⟨some n, some n, 1⟩ else ⟨none, none, 0⟩)
    (hnext : (s.point n).next = none)
    (hv : ∀ v, s.noticeSet v = if (s.point n).causes ≠ 0 ∧ (s.point n).level = v then [n] else [])
    (hh : 1 ≤ (s.point n).staleAt ∧ (s.point n).staleAt ≤ (s.point n).faultAt ∧
      (s.point n).fails ≤ (s.point n).faultAt ∧
      ((s.point n).state = .faulted ↔ (s.point n).fails = (s.point n).faultAt) ∧
      ((s.point n).state = .stale ↔ (s.point n).staleAt ≤ (s.point n).fails ∧ (s.point n).fails < (s.point n).faultAt) ∧
      (s.point n).probe ≤ 7)
    (hi : s.accessPoint = if (s.point n).inFlight = .none then none else some n)
    (hw : (s.point n).redefined = true ∨ (s.point n).writeAgain = true → (s.point n).inFlight ≠ .none)
    (hg : s.freeSegs = (List.finRange 96).filter (· ∉ (s.point n).segments))
    (hl : (s.point n).segments.Nodup ∧ (s.point n).segments.length = segmentsFor (s.point n).blockLen)
    (hb : (s.point n).kind = .block → 1 ≤ (s.point n).blockLen ∧ (s.point n).blockLen ≤ 32)
    (hp : ∀ k, (s.classState k).inPass = (s.classState k).cursor.isSome ∧
      ((s.classState k).cursor = none ∨ ((s.classState k).cursor = some n ∧ (s.point n).cls = some k)))
    (hq : s.scan.run = false → s.scan.sweep = none ∧
      ∀ c, (s.classState c).inPass = false ∧ (s.classState c).cursor = none)
    (hld : s.loading = false) (ho : s.OrderAgrees) (he : s.bus.phase = .idle → ∀ r, s.entry r = none) :
    s.Consistent := by
  have hr : (s.point n).state ≠ .free ∧ (s.point n).state ≠ .retiring := by
    constructor <;> intro h <;> rw [h] at hd <;> exact absurd hd (by decide)
  have only : ∀ m, (s.point m).state.isDefined = true → m = n := by
    intro m hm
    by_contra hne
    rw [hf m hne] at hm
    exact absurd hm (by decide)
  refine ⟨⟨?_, ?_⟩, ?_, ?_, ?_, ⟨?_, ?_, ?_, ?_, ?_⟩, ?_, ?_, hq, ?_, ho, he⟩
  · intro v; rw [hv v]; split <;> simp
  · intro m v
    rw [hv v]
    by_cases hm : m = n
    · subst hm; split <;> simp_all
    · rw [hf m hm]; split <;> simp [hm, Point.free]
  · intro m
    by_cases hm : m = n
    · subst hm; exact ⟨fun h => absurd h hr.1, fun h => absurd h hr.2⟩
    · rw [hf m hm]; exact ⟨fun _ => rfl, fun _ => ⟨rfl, rfl, rfl⟩⟩
  · intro m hm
    obtain rfl := only m hm
    exact hh
  · intro m
    rw [hi]
    by_cases hm : m = n
    · subst hm
      refine ⟨?_, fun h => absurd h hr.2, hw, fun h => absurd h hr.1⟩
      split <;> simp_all
    · rw [hf m hm]
      refine ⟨?_, by decide, by decide, by decide⟩
      split <;> simp [Point.free, Ne.symm hm]
  · rw [hg]; exact (List.pairwise_lt_finRange 96).filter _
  · intro g
    rw [hg]
    simp only [List.mem_filter, List.mem_finRange, true_and, decide_eq_true_eq]
    constructor
    · intro h m
      by_cases hm : m = n
      · subst hm; exact h
      · rw [hf m hm]; simp [Point.free]
    · intro h; exact h n
  · intro a b g ha hb'
    by_cases h1 : a = n
    · by_cases h2 : b = n
      · rw [h1, h2]
      · rw [hf b h2] at hb'; simp [Point.free] at hb'
    · rw [hf a h1] at ha; simp [Point.free] at ha
  · intro m
    by_cases hm : m = n
    · subst hm; exact hl
    · rw [hf m hm]; decide
  · intro m hm
    obtain rfl := only m hm
    exact hb
  · intro c
    by_cases h : c = (s.point n).cls
    · refine ⟨[n], ⟨?_, by simp, ?_, ?_⟩, ?_⟩
      · rw [hc c, if_pos h]; exact ⟨rfl, hnext⟩
      · rw [hc c, if_pos h]; rfl
      · rw [hc c, if_pos h]; rfl
      · intro m
        constructor
        · intro hm
          obtain rfl := List.mem_singleton.mp hm
          exact ⟨hd, h.symm⟩
        · intro hm
          rw [only m hm.1]; simp
    · refine ⟨[], ⟨?_, by simp, ?_, ?_⟩, ?_⟩
      · rw [hc c, if_neg h]; exact rfl
      · rw [hc c, if_neg h]; rfl
      · rw [hc c, if_neg h]; rfl
      · intro m
        constructor
        · intro hm; simp at hm
        · intro hm
          rw [only m hm.1] at hm
          exact absurd hm.2.symm h
  · intro k
    refine ⟨(hp k).1, fun m hm => ?_⟩
    rcases (hp k).2 with h | h
    · rw [h] at hm; simp at hm
    · rw [h.1] at hm
      obtain rfl := Option.some.inj hm
      exact ⟨hd, h.2⟩
  · intro h; rw [hld] at h; exact absurd h (by decide)

/-- The facts `consistent_of_one` asks for of a state whose one record out of FREE is `r`, as one check. -/
def oneChecks (s : State) (n : PointNo) (r : Point) : Bool := decide (
  r.state.isDefined = true ∧
  (∀ c, s.chain c = if c = r.cls then ⟨some n, some n, 1⟩ else ⟨none, none, 0⟩) ∧ r.next = none ∧
  (∀ v, s.noticeSet v = if r.causes ≠ 0 ∧ r.level = v then [n] else []) ∧
  (1 ≤ r.staleAt ∧ r.staleAt ≤ r.faultAt ∧ r.fails ≤ r.faultAt ∧ (r.state = .faulted ↔ r.fails = r.faultAt) ∧
    (r.state = .stale ↔ r.staleAt ≤ r.fails ∧ r.fails < r.faultAt) ∧ r.probe ≤ 7) ∧
  (s.accessPoint = if r.inFlight = .none then none else some n) ∧
  (r.redefined = true ∨ r.writeAgain = true → r.inFlight ≠ .none) ∧
  s.freeSegs = (List.finRange 96).filter (· ∉ r.segments) ∧
  (r.segments.Nodup ∧ r.segments.length = segmentsFor r.blockLen) ∧
  (r.kind = .block → 1 ≤ r.blockLen ∧ r.blockLen ≤ 32) ∧
  (∀ k, (s.classState k).inPass = (s.classState k).cursor.isSome ∧
    ((s.classState k).cursor = none ∨ ((s.classState k).cursor = some n ∧ r.cls = some k))) ∧
  (s.scan.run = false → s.scan.sweep = none ∧
    ∀ c, (s.classState c).inPass = false ∧ (s.classState c).cursor = none) ∧
  s.loading = false ∧ s.notify.order.toList.Nodup ∧
  (s.bus.phase = .idle → s.entry .scan = none ∧ s.entry (.slot .primary) = none ∧ s.entry (.slot .maint) = none))

theorem point_of_points {s : State} {n : PointNo} {r : Point}
    (hs : s.points = (Vector.replicate 256 Point.free).set n.val r) (m : PointNo) :
    s.point m = if m = n then r else Point.free := by
  by_cases hm : m = n
  · simp [point, hs, hm]
  · have : n.val ≠ m.val := fun e => hm (Fin.ext e.symm)
    simp [point, hs, hm, this]

theorem consistent_of_checks {s : State} (n : PointNo) (r : Point)
    (hs : s.points = (Vector.replicate 256 Point.free).set n.val r) (h : oneChecks s n r = true) : s.Consistent := by
  have hn : s.point n = r := by simp [point, hs]
  have h1 : ∀ m, m ≠ n → s.point m = Point.free := fun m hm => by simp [point_of_points hs, hm]
  have h' := of_decide_eq_true h
  rw [← hn] at h'
  obtain ⟨h2, h3, h4, h5, h6, h7, h8, h9, h10, h11, h12, h13, h14, h15, h16⟩ := h'
  exact consistent_of_one h1 h2 h3 h4 h5 h6 h7 h8 h9 h10 h11 h12 h13 h14 h15
    (fun hi r => by obtain ⟨a, b, c⟩ := h16 hi; rcases r with _ | _ | _ <;> assumption)

/-- The table engine takes this command next, as one check. -/
def isNext (s : State) (p : Port) (name : CmdName) (c : Command) : Bool :=
  decide (s.tableTurn = some (.slot p) ∧ s.busyWith p = some c ∧ CmdName.ofCode c.code = name)

theorem nextCommand_of_isNext {s : State} {p : Port} {name : CmdName} {c : Command} (h : isNext s p name c = true) :
    s.NextCommand p name c := by
  have h' := of_decide_eq_true h
  exact h'

/-- Whether a definition is accepted. -/
def accepts (s : State) (raw : RawDef) (mustBe : Option Kind) (held : Nat) : Bool :=
  match s.checkDefinition raw mustBe held with
  | .ok _ => true
  | .error _ => false

theorem exists_ok_of_accepts {s : State} {raw : RawDef} {m : Option Kind} {k : Nat} (h : accepts s raw m k = true) :
    ∃ d, s.checkDefinition raw m k = .ok d := by
  unfold accepts at h
  split at h
  · exact ⟨_, by assumption⟩
  · simp at h

/-- The code a definition is refused with. -/
def refusedBy (s : State) (raw : RawDef) (mustBe : Option Kind) (held : Nat) : Option ResultCode :=
  match s.checkDefinition raw mustBe held with
  | .ok _ => none
  | .error code => some code

theorem error_of_refusedBy {s : State} {raw : RawDef} {m : Option Kind} {k : Nat} {code : ResultCode}
    (h : refusedBy s raw m k = some code) : s.checkDefinition raw m k = .error code := by
  unfold refusedBy at h
  split at h
  · simp at h
  · simp at h; subst h; assumption

/-! ### The machine as a whole -/

theorem test_step_takes_the_front :
    step { up with pending := [.commandByte 0x84, .transferEnd] }
      = .next { up with pending := [.transferEnd], spi := .active true 0x04, sdo := .low } ∧ up.pending = [] := ⟨rfl, rfl⟩

/-- The primary slot with this command on the state of `one 64 meter` in its region. -/
def meterCmd (code operand : Byte) (ps : List Word) : State :=
  busy (inArea (one 64 meter)) .primary (cmdOf code operand ps .queued)

/-- Every requester of the table engine waits. -/
def allAsk (last : Requester) : State :=
  { busy (meterCmd 0x06 64 []) .maint (cmdOf 0x06 64 [] .queued) with
    lastTaken := last, scan := { Scan.reset with run := true, req := .visiting (.sweep 0) } }

/-- Each event where it is not due, counts one short of theirs. -/
theorem witness_EventsNotDueChangeNothing :
    up.NotDue .accessStart ∧ up.NotDue .accessCompletion ∧ (∀ bd, up.NotDue (.selfPacedBeatEnd bd)) ∧
    up.NotDue .beatTimeout ∧ (∀ c, up.NotDue (.classTimerExpiry c)) ∧ (∀ k, up.NotDue (.atnEvent k (up.line k).live)) ∧
    (∀ b, (spiAt up true 3).NotDue (.commandByte b)) ∧ (∀ r, up.NotDue (.verifyPass r)) ∧
    (∀ r, up.NotDue (.loadHeader r)) ∧ up.NotDue (.ack .spi 0) ∧
    registerRead (.claim .spi) = some (.spi, Reg.claim) ∧ up.takesWord .spi true Reg.claim = false ∧
    (spiAt State.reset true Reg.claim).takesWord .spi true Reg.claim = true ∧
    (spiAt State.reset true Reg.claim).loading = true := by
  have hp : up.bus.phase = .idle := rfl
  have hv : up.loader.state ≠ .verify := by decide +kernel
  have hh : ¬ (up.loader.state = .apply ∧ up.loader.headerDone = false) := by decide +kernel
  have hs : (spiAt up true 3).spi ≠ .ready := by decide +kernel
  exact ⟨.start (.inl (by simp [hp])), .completion (.inl (by simp [hp])), fun _ => .beatEnd _ (by simp [hp]),
    .timeout (by simp [hp]), fun _ => .expiry _ (.inl (by decide +kernel)), fun _ => .atn _, fun _ => .byte _ hs,
    fun _ => .verify _ hv, fun _ => .header _ hh, .write _ _ _ rfl (.inl (by decide +kernel)), rfl, by decide +kernel,
    by decide +kernel, rfl⟩

/-- A transaction with another device, from another start, and one byte short. -/
theorem witness_TransactionsNotDue :
    State.reset.NotDue (.verifyPass ⟨0x51, 0, .bytes [0xFF, 0xFF]⟩) ∧
    State.reset.NotDue (.verifyPass ⟨0x50, 2, .bytes [0xFF, 0xFF]⟩) ∧ State.reset.startAddress = some 0 ∧
    (∀ d x, State.reset.NotDue (.loadChecksum ⟨d, x, .bytes [0]⟩)) :=
  ⟨.address _ _ (.inl rfl) (.inl (by decide)), .address _ _ (.inl rfl) (.inr (by decide)), rfl,
    fun d x => .unfinished _ d x _ (.inr (.inr (.inr ⟨rfl, by decide⟩)))⟩

/-- Three requesters take turns; a report goes first; only the slot whose turn it is has its command taken. -/
theorem witness_TableEngineTakesRequestsInOrder :
    State.reset.loading = true ∧ ((allAsk .scan).setPhase (.granted (scanGrant 64))).reportWaits = true ∧
    (allAsk .scan).tableTurn = some (.slot .primary) ∧ (allAsk (.slot .primary)).tableTurn = some (.slot .maint) ∧
    (allAsk (.slot .maint)).tableTurn = some .scan ∧ (meterCmd 0x06 64 []).tableTurn = some (.slot .primary) ∧
    commandRow .read .primary = some (.read .primary) ∧ commandRow .read .maint = some (.read .maint) ∧
    (allAsk .scan).NextCommand .primary .read (cmdOf 0x06 64 [] .queued) ∧
    (∀ c, ¬ (allAsk .scan).NextCommand .maint .read c) ∧ (allAsk .scan).tableTurn ≠ some .scan :=
  ⟨by decide +kernel, by decide +kernel, by decide +kernel, by decide +kernel, by decide +kernel, by decide +kernel,
    rfl, rfl, nextCommand_of_isNext (by decide +kernel), fun _ h => absurd h.1 (by decide +kernel), by decide +kernel⟩

theorem test_coldReset :
    (after (.coldReset true true) (meterCmd 0x06 64 [])).i2cAddr = 0x4D ∧
    (after (.coldReset true true) (meterCmd 0x06 64 [])).spi = .abandoned ∧
    (after (.coldReset false false) (meterCmd 0x06 64 [])).spi = .ready ∧
    (after (.coldReset false true) (spiAt up true 3)).sdo = .unstated ∧
    (after (.coldReset false false) (spiAt up true 3)).spi = .ready ∧
    (after (.coldReset false false) { spiAt up true 3 with sdo := .low }).sdo = .undriven ∧
    (after (.coldReset false false) (meterCmd 0x06 64 [])).point 64 = Point.free ∧
    (after (.coldReset false false) (meterCmd 0x06 64 [])).chain (some 1) = Chain.empty := by decide +kernel

/-- A consistent state from which a step leads on: the premises of the six StepKeeps statements. -/
theorem witness_StepKeeps :
    ({ meterCmd 0x03 64 [] with pending := [.retire .primary] } : State).Consistent ∧
    (∃ t, step { meterCmd 0x03 64 [] with pending := [.retire .primary] } = .next t ∧ t.point 64 = Point.free) :=
  ⟨consistent_of_checks 64 meter rfl (by decide +kernel), _, rfl, by decide +kernel⟩

/-! ### Formats -/

/-- The definition block of point 64 of section 4.9, word by word from R173. -/
def meterWords : List Word :=
  [0x0234, 0x0004, 0x0000, 0x0010, 0x0019, 0xFFFF, 0xFF38, 0x0000, 0x0320, 0x0032, 0x0063, 0x0003, 0x0000]

/-- A definition block in a list. -/
def rawOf (ws : List Word) : RawDef := RawDef.ofWords fun i => ws.getD i 0

/-- The definition of an OUTPUT point of class NONE: one that follows point 90 on the UNSCHEDULED chain. -/
def outputWords : List Word := [0x0485, 0x0002, 0, 0x0024, 0, 0, 0, 0, 0, 0, 0x00F1, 0x00A4, 0x5A5A]

/-- The record those words give a FREE point. -/
def laid : Point := { relay with
  width := .w16, offset := 0x24, shadow := 0x5A5A, value := 0, state := .unread }

/-- The definition of point 64, and the record that carries it. -/
theorem witness_DefinitionBlockReadsBack :
    ((rawOf meterWords).check none).isSome = true ∧ ((rawOf meterWords).check (some .input)).isSome = true ∧
    ((rawOf meterWords).check none).map (·.onto ((one 64 meter).point 64)) = some ((one 64 meter).point 64) ∧
    (((one 64 meter).snapshot 64).toList.drop 8).take 13 = meterWords ∧
    ((rawOf outputWords).check (some .output)).map (·.onto ((one 92 laid).point 92)) = some ((one 92 laid).point 92) ∧
    ((rawOf outputWords).check (some .output)).map (·.initShadow) = some (loWord ((one 92 laid).point 92).shadow) := by
  decide +kernel

theorem test_regionWord :
    (List.range 6).map (regionWord 3 ⟨true, 0x123400, 2, false, true, .highFirst, .device, 7, 25⟩)
      = [3, 0x021D, 0x0012, 0x3400, 0x0007, 0x0019] := by decide +kernel

/-- A record with every counter at the top of its range. -/
def topped : Point := { meter with
  fails := 15, probe := 7, mismatches := 255, lastLen := 32, holder := some .maint, next := some 255, alarm := .low
  causes := 0x02 }

/-- That record, and the block words of `burst`, nine of them, the first 5. -/
theorem witness_SnapshotHeaderPlacesEveryField :
    (((one 64 topped).point 64).fails ≤ 15 ∧ ((one 64 topped).point 64).probe ≤ 7 ∧
      ((one 64 topped).point 64).mismatches ≤ 255 ∧ ((one 64 topped).point 64).lastLen ≤ 32) ∧
    ((one 64 topped).snapshot 64).toList.take 8
      = [0x0842, 0x0302, 0xFF7F, 0x80FF, 0x0000, 0x0064, 0x0000, 0x0064] ∧
    ((one 10 burst).setBlockWord burst.segments 0 5).point 10 = burst ∧
    (((one 10 burst).setBlockWord burst.segments 0 5).snapshot 10).toList.drop 24 = 5 :: List.replicate 39 0 := by decide +kernel

/-! ### Definitions -/

/-- The size of region 0 with a SIZE code of 0 is 256 bytes: offset 254 is the last for a 16-bit point (R3). -/
def smallArea (s : State) : State := s.setRegion 0 { area4k with sizeCode := 0 }

/-- The four outcomes of R3 at their boundaries: a field out of range, a region disabled or too small by one access, a
pool too small by one segment, and a definition that just fits. -/
theorem witness_DefinitionIsCheckedInOrder :
    refusedBy up (rawOf (meterWords.set 10 0x0060)) none 0 = some .badField ∧
    refusedBy up (rawOf (meterWords.set 10 0x0036)) none 0 = some .badField ∧
    refusedBy up (rawOf (meterWords.set 2 0x0800)) none 0 = some .badField ∧
    refusedBy up (rawOf (meterWords.set 3 0x0011)) none 0 = some .badField ∧
    refusedBy up (rawOf (meterWords.set 0 0x0224)) none 0 = some .badField ∧
    refusedBy up (rawOf meterWords) (some .output) 0 = some .badField ∧
    refusedBy up (rawOf meterWords) none 0 = some .noRegion ∧
    refusedBy (smallArea up) (rawOf (meterWords.set 3 0x0100)) none 0 = some .noRegion ∧
    accepts (smallArea up) (rawOf (meterWords.set 3 0x00FE)) none 0 = true ∧
    refusedBy { inArea up with freeSegs := [1, 2] } (rawOf [0x0062, 0, 0, 0x40, 0, 0, 0, 0, 0, 0, 0x11FF]) none 0
      = some .noSpace ∧
    accepts { inArea up with freeSegs := [1, 2] } (rawOf [0x0062, 0, 0, 0x40, 0, 0, 0, 0, 0, 0, 0x11FF]) none 1 = true ∧
    accepts (inArea up) (rawOf meterWords) (some .input) 0 = true := by decide +kernel

theorem witness_FieldsValid :
    (rawOf meterWords).FieldsValid none ∧ ¬ (rawOf (meterWords.set 10 0x0060)).FieldsValid none :=
  ⟨RawDef.valid_of_check (d := ((rawOf meterWords).check none).get (by decide +kernel)) (by simp),
    by rintro ⟨-, -, -, -, -, -, -, h, -⟩; exact absurd h (by decide +kernel)⟩

/-! ### Table commands -/

/-- DEFINE 64 of section 4.9 beside point 90, and DEFINE 92 on the chain point 90 is on. -/
def defining (operand : Byte) (ws : List Word) : State :=
  busy (inArea (one 90 relay)) .primary (cmdOf 0x01 operand ws .queued)

/-- The definition of a BLOCK point of BLOCK_LEN `n` on class 3 (section 5.6). -/
def blockWords (n : Nat) : List Word :=
  [0x0762, 0, 0, 0x0040, 0, 0, 0, 0, 0, 0, BitVec.ofNat 16 (n * 256 + 0xFF), 0x0041, 0]

theorem test_define :
    (after (.define .primary) (defining 64 meterWords)).point 64
      = { meter with state := .unread, value := 0, reference := 0 } ∧
    ((after (.define .primary) (defining 64 meterWords)).slot .primary).result = .ok ∧
    ((after (.define .primary) (defining 92 outputWords)).point 90).next = some 92 ∧
    ((after (.define .primary) (defining 92 outputWords)).point 92).shadow = 0x5A5A ∧
    (after (.define .primary) (defining 92 outputWords)).chain none = ⟨some 90, some 92, 2⟩ ∧
    ((after (.define .primary) (defining 10 (blockWords 20))).point 10).segments = [0, 1, 2] ∧
    (after (.define .primary) (defining 10 (blockWords 20))).freeSegs = (List.finRange 96).drop 3 := by decide +kernel

theorem witness_DefineTakesAFreePointToUnread :
    (defining 64 meterWords).NextCommand .primary .define (cmdOf 0x01 64 meterWords .queued) ∧
    (defining 64 meterWords).Consistent ∧ ((defining 64 meterWords).point 64).state = .free ∧
    (∃ d, (defining 64 meterWords).checkDefinition
      (RawDef.ofWords (paramWord (cmdOf 0x01 64 meterWords .queued))) none 0 = .ok d) ∧
    (defining 92 outputWords).NextCommand .primary .define (cmdOf 0x01 92 outputWords .queued) ∧
    ((defining 92 outputWords).point 92).state = .free ∧
    accepts (defining 92 outputWords) (RawDef.ofWords (paramWord (cmdOf 0x01 92 outputWords .queued))) none 0 = true ∧
    (defining 10 (blockWords 20)).NextCommand .primary .define (cmdOf 0x01 10 (blockWords 20) .queued) ∧
    accepts (defining 10 (blockWords 20))
      (RawDef.ofWords (paramWord (cmdOf 0x01 10 (blockWords 20) .queued))) none 0 = true :=
  ⟨nextCommand_of_isNext (by decide +kernel), consistent_of_checks 90 relay rfl (by decide +kernel), by decide +kernel,
    exists_ok_of_accepts (by decide +kernel), nextCommand_of_isNext (by decide +kernel), by decide +kernel,
    by decide +kernel, nextCommand_of_isNext (by decide +kernel), by decide +kernel⟩

/-- A MODIFY of point 10, `burst`, to these words. -/
def modifying (ws : List Word) : State := busy (inArea (one 10 burst)) .primary (cmdOf 0x02 10 ws .queued)

/-- The words of `burst` at another length and class. -/
def burstWords (n : Nat) (w0 : Word) : List Word :=
  [w0, 0, 0, 0x0040, 0, 0, 0, 0, 0, 0, BitVec.ofNat 16 (n * 256 + 0xFF), 0x0041, 0]

theorem test_modify :
    ((after (.modify .primary) (modifying (burstWords 24 0x0762))).point 10).segments = [0, 1, 2] ∧
    (after (.modify .primary) (modifying (burstWords 8 0x0762))).freeSegs = (List.finRange 96).drop 1 ∧
    (after (.modify .primary) (modifying (burstWords 32 0x0702))).chain (some 0) = ⟨some 10, some 10, 1⟩ ∧
    (after (.modify .primary) (modifying (burstWords 32 0x0702))).chain (some 3) = Chain.empty ∧
    ((after (.modify .primary) (modifying (burstWords 1 0x0762))).slot .primary).result = .ok := by decide +kernel

/-- Grown, shrunk, and moved to another class; BLOCK_LEN at 1 and at 32. -/
theorem witness_ModifyRedefinesThePoint :
    (modifying (burstWords 32 0x0762)).NextCommand .primary .modify (cmdOf 0x02 10 (burstWords 32 0x0762) .queued) ∧
    (modifying (burstWords 32 0x0762)).Consistent ∧
    ((modifying (burstWords 32 0x0762)).point 10).state.isDefined = true ∧
    ((modifying (burstWords 32 0x0762)).point 10).holder ≠ some (otherPort .primary) ∧
    accepts (modifying (burstWords 32 0x0762))
      (RawDef.ofWords (paramWord (cmdOf 0x02 10 (burstWords 32 0x0762) .queued))) (some .block) 2 = true ∧
    accepts (modifying (burstWords 1 0x0762))
      (RawDef.ofWords (paramWord (cmdOf 0x02 10 (burstWords 1 0x0762) .queued))) (some .block) 2 = true ∧
    accepts (modifying (burstWords 9 0x0702))
      (RawDef.ofWords (paramWord (cmdOf 0x02 10 (burstWords 9 0x0702) .queued))) (some .block) 2 = true :=
  ⟨nextCommand_of_isNext (by decide +kernel), consistent_of_checks 10 burst rfl (by decide +kernel), by decide +kernel,
    by decide +kernel, by decide +kernel, by decide +kernel, by decide +kernel⟩

/-- The scan engine's read of point 64 has started: the engine runs its one self-paced beat. -/
def meterRunning : State :=
  after .accessStart { (inArea (one 64 meter)).setPhase (.granted (scanGrant 64)) with
    scan := { Scan.reset with run := true, req := .requested } }

/-- RETIRE 64 in this state, while the maintenance slot's READ_NOW 64 waits for the access to end. -/
def retiring (s : State) : State :=
  busy (busy s .primary (cmdOf 0x03 64 [] .queued)) .maint (cmdOf 0x07 64 [] .waitPoint)

theorem test_retire :
    (after (.retire .primary) (meterCmd 0x03 64 [])).point 64 = Point.free ∧
    (after (.retire .primary) (meterCmd 0x03 64 [])).chain (some 1) = Chain.empty ∧
    ((after (.retire .primary) (meterCmd 0x03 64 [])).slot .primary).result = .ok ∧
    ((after (.retire .primary) (retiring meterRunning)).point 64).state = .retiring ∧
    ((after (.retire .primary) (retiring meterRunning)).slot .maint).result = .retired ∧
    (after (.retire .primary) (retiring meterRunning)).busyWith .primary = some (cmdOf 0x03 64 [] (.waitFree 64 0)) := by
  decide +kernel

theorem witness_RetireFreesAPointAtOnce :
    (meterCmd 0x03 64 []).NextCommand .primary .retire (cmdOf 0x03 64 [] .queued) ∧ (meterCmd 0x03 64 []).Consistent ∧
    ((meterCmd 0x03 64 []).point 64).state.isDefined = true ∧
    ((meterCmd 0x03 64 []).point 64).holder ≠ some (otherPort .primary) ∧
    ((meterCmd 0x03 64 []).point 64).inFlight = .none :=
  ⟨nextCommand_of_isNext (by decide +kernel), consistent_of_checks 64 meter rfl (by decide +kernel), by decide +kernel,
    by decide +kernel, by decide +kernel⟩

theorem witness_RetireOfAPointInFlightWaits :
    (retiring meterRunning).NextCommand .primary .retire (cmdOf 0x03 64 [] .queued) ∧ (retiring meterRunning).Consistent ∧
    ((retiring meterRunning).point 64).state.isDefined = true ∧
    ((retiring meterRunning).point 64).holder ≠ some (otherPort .primary) ∧
    ((retiring meterRunning).point 64).inFlight ≠ .none ∧
    (retiring meterRunning).EndedByRetirement 64 .maint :=
  ⟨nextCommand_of_isNext (by decide +kernel), consistent_of_checks 64 { meter with inFlight := .read } rfl (by decide +kernel), by decide +kernel,
    by decide +kernel, by decide +kernel, cmdOf 0x07 64 [] .waitPoint, by decide +kernel, by decide +kernel, .inl rfl⟩

/-- `meterCmd` with point 64 held by the maintenance port. -/
def heldCmd (code : Byte) : State :=
  busy (inArea (one 64 { meter with holder := some .maint })) .primary (cmdOf code 64 [] .queued)

theorem test_hold_and_release :
    (after (.hold .primary) (meterCmd 0x04 64 [])).point 64 = { meter with holder := some .primary } ∧
    ((after (.hold .primary) (meterCmd 0x04 64 [])).slot .primary).area[0] = 0x0022 ∧
    (after (.release .primary) (meterCmd 0x05 64 [])).point 64 = meter ∧
    ((after (.hold .primary) (heldCmd 0x04)).slot .primary).result = .held ∧
    ((after (.release .primary) (meterCmd 0x05 65 [])).slot .primary).result = .notDefined := by decide +kernel

theorem witness_HoldAndReleaseActOnHolder :
    (meterCmd 0x04 64 []).NextCommand .primary .hold (cmdOf 0x04 64 [] .queued) ∧
    (meterCmd 0x05 64 []).NextCommand .primary .release (cmdOf 0x05 64 [] .queued) ∧
    ((meterCmd 0x04 64 []).point 64).state.isDefined = true ∧
    ((meterCmd 0x04 64 []).point 64).holder ≠ some (otherPort .primary) ∧
    (heldCmd 0x04).NextCommand .primary .hold (cmdOf 0x04 64 [] .queued) ∧
    (heldCmd 0x05).NextCommand .primary .release (cmdOf 0x05 64 [] .queued) ∧
    ((heldCmd 0x05).point 64).holder = some (otherPort .primary) ∧
    (meterCmd 0x04 65 []).NextCommand .primary .hold (cmdOf 0x04 65 [] .queued) ∧
    (meterCmd 0x05 65 []).NextCommand .primary .release (cmdOf 0x05 65 [] .queued) ∧
    ((meterCmd 0x05 65 []).point 65).state.isDefined = false := by
  refine ⟨nextCommand_of_isNext ?_, nextCommand_of_isNext ?_, ?_, ?_, nextCommand_of_isNext ?_,
    nextCommand_of_isNext ?_, ?_, nextCommand_of_isNext ?_, nextCommand_of_isNext ?_, ?_⟩ <;> decide +kernel

/-- A WRITE to point 90 from a port, with value and mask, region 0 as given. -/
def writing (p : Port) (r : Point) (g : Region) : State :=
  busy ((one 90 r).setRegion 0 g) p (cmdOf 0x08 90 [0x0001, 0x2345, 0xFFFF, 0xFFFF] .queued)

theorem witness_RefusedCommandsChangeNothing :
    (defining 90 meterWords).NextCommand .primary .define (cmdOf 0x01 90 meterWords .queued) ∧
    ((defining 90 meterWords).point 90).state ≠ .free ∧
    (defining 64 []).NextCommand .primary .define (cmdOf 0x01 64 [] .queued) ∧
    ((defining 64 []).point 64).state = .free ∧
    refusedBy (defining 64 []) (RawDef.ofWords (paramWord (cmdOf 0x01 64 [] .queued))) none 0 = some .badField ∧
    (meterCmd 0x02 65 []).NextCommand .primary .modify (cmdOf 0x02 65 [] .queued) ∧
    (heldCmd 0x02).NextCommand .primary .modify (cmdOf 0x02 64 [] .queued) ∧
    (meterCmd 0x02 64 outputWords).NextCommand .primary .modify (cmdOf 0x02 64 outputWords .queued) ∧
    refusedBy (meterCmd 0x02 64 outputWords) (RawDef.ofWords (paramWord (cmdOf 0x02 64 outputWords .queued)))
      (some .input) 0 = some .badField ∧
    (meterCmd 0x03 65 []).NextCommand .primary .retire (cmdOf 0x03 65 [] .queued) ∧
    (heldCmd 0x03).NextCommand .primary .retire (cmdOf 0x03 64 [] .queued) ∧
    (meterCmd 0x07 65 []).NextCommand .primary .readNow (cmdOf 0x07 65 [] .queued) := by
  refine ⟨nextCommand_of_isNext ?_, ?_, nextCommand_of_isNext ?_, ?_, ?_, nextCommand_of_isNext ?_,
    nextCommand_of_isNext ?_, nextCommand_of_isNext ?_, ?_, nextCommand_of_isNext ?_, nextCommand_of_isNext ?_,
    nextCommand_of_isNext ?_⟩ <;> decide +kernel

theorem witness_RefusedWrites :
    (meterCmd 0x08 65 []).NextCommand .primary .write (cmdOf 0x08 65 [] .queued) ∧
    (meterCmd 0x08 64 []).NextCommand .primary .write (cmdOf 0x08 64 [] .queued) ∧
    ((meterCmd 0x08 64 []).point 64).kind ≠ .output ∧
    (writing .primary { relay with holder := some .maint } area4k).NextCommand .primary .write
      (cmdOf 0x08 90 [0x0001, 0x2345, 0xFFFF, 0xFFFF] .queued) ∧
    (writing .primary relay { area4k with readOnly := true }).NextCommand .primary .write
      (cmdOf 0x08 90 [0x0001, 0x2345, 0xFFFF, 0xFFFF] .queued) ∧
    (writing .maint relay { area4k with primaryOnly := true }).NextCommand .maint .write
      (cmdOf 0x08 90 [0x0001, 0x2345, 0xFFFF, 0xFFFF] .queued) ∧
    ((after (.write .maint) (writing .maint relay { area4k with primaryOnly := true })).slot .maint).result
      = .isProtected := by
  refine ⟨nextCommand_of_isNext ?_, nextCommand_of_isNext ?_, ?_, nextCommand_of_isNext ?_, nextCommand_of_isNext ?_,
    nextCommand_of_isNext ?_, ?_⟩ <;> decide +kernel

/-- READ of a FREE point completes OK too (R40). -/
theorem witness_ReadTouchesNothing :
    (meterCmd 0x06 255 []).NextCommand .primary .read (cmdOf 0x06 255 [] .queued) ∧
    ((after (.read .primary) (meterCmd 0x06 255 [])).slot .primary).area.toList
      = [0, 0, 0, 0x0100] ++ List.replicate 60 0 := by
  refine ⟨nextCommand_of_isNext ?_, ?_⟩ <;> decide +kernel

theorem test_read :
    ((after (.read .primary) (meterCmd 0x06 64 [])).slot .primary).area.toList.take 21
      = [0x0002, 0x0300, 0x0000, 0x0100, 0x0000, 0x0064, 0x0000, 0x0064] ++ meterWords ∧
    ((after (.read .primary) (meterCmd 0x06 64 [])).slot .primary).area.toList.drop 21 = List.replicate 43 0 := by
  decide +kernel

theorem witness_ReadNowAsksForAnAccess :
    (meterCmd 0x07 64 []).NextCommand .primary .readNow (cmdOf 0x07 64 [] .queued) ∧
    (meterCmd 0x07 64 []).EngineAgrees ∧ ((meterCmd 0x07 64 []).point 64).state.isDefined = true ∧
    ((meterCmd 0x07 64 []).point 64).inFlight = .none ∧
    (busy meterRunning .primary (cmdOf 0x07 64 [] .queued)).NextCommand .primary .readNow (cmdOf 0x07 64 [] .queued) ∧
    ((busy meterRunning .primary (cmdOf 0x07 64 [] .queued)).point 64).inFlight ≠ .none := by
  refine ⟨nextCommand_of_isNext ?_, (consistent_of_checks 64 meter rfl ?_).engine, ?_, ?_, nextCommand_of_isNext ?_, ?_⟩ <;>
    decide +kernel

theorem test_readNow :
    (after (.readNow .primary) (meterCmd 0x07 64 [])).bus.phase = .granted ⟨64, .slot .primary, false, true⟩ ∧
    (after (.readNow .primary) (meterCmd 0x07 64 [])).busyWith .primary = some (cmdOf 0x07 64 [] .waitGrant) ∧
    (after (.readNow .primary) (busy meterRunning .primary (cmdOf 0x07 64 [] .queued))).busyWith .primary
      = some (cmdOf 0x07 64 [] .waitPoint) := by decide +kernel

/-- Point 90 with its WRITE_VERIFY in flight (section 4.10), as the second WRITE finds it. -/
def secondWrite (again : Bool) : State :=
  busy ((inArea (one 90 { relay with shadow := 0x00012345, inFlight := .write, writeAgain := again })).setPhase
    (.running ⟨90, .slot .primary, true, true⟩ (up.accessOf relay)))
    .maint (cmdOf 0x08 90 [0x0000, 0x0002, 0x0000, 0x000F] .queued)

theorem witness_WriteChangesShadowAndWaits :
    (writing .primary relay area4k).NextCommand .primary .write
      (cmdOf 0x08 90 [0x0001, 0x2345, 0xFFFF, 0xFFFF] .queued) ∧
    (writing .primary relay area4k).EngineAgrees ∧
    ((writing .primary relay area4k).point 90).inFlight = .none ∧
    (secondWrite false).NextCommand .maint .write (cmdOf 0x08 90 [0x0000, 0x0002, 0x0000, 0x000F] .queued) ∧
    (secondWrite false).EngineAgrees ∧ ((secondWrite false).point 90).kind = .output ∧
    ((secondWrite false).region 0).readOnly = false ∧ ((secondWrite false).region 0).primaryOnly = false ∧
    (secondWrite true).NextCommand .maint .write (cmdOf 0x08 90 [0x0000, 0x0002, 0x0000, 0x000F] .queued) ∧
    (secondWrite true).EngineAgrees := by
  refine ⟨nextCommand_of_isNext ?_, (consistent_of_checks 90 relay rfl ?_).engine, ?_, nextCommand_of_isNext ?_,
    (consistent_of_checks 90
      { relay with shadow := 0x00012345, inFlight := .write } rfl ?_).engine, ?_, ?_, ?_, nextCommand_of_isNext ?_, (consistent_of_checks 90
      { relay with shadow := 0x00012345, inFlight := .write, writeAgain := true } rfl ?_).engine⟩ <;>
    decide +kernel

theorem test_write :
    ((after (.write .primary) (writing .primary relay area4k)).point 90).shadow = 0x00012345 ∧
    (after (.write .primary) (writing .primary relay area4k)).bus.phase = .granted ⟨90, .slot .primary, true, true⟩ ∧
    ((after (.write .maint) (secondWrite false)).point 90).shadow = 0x00012342 ∧
    ((after (.write .maint) (secondWrite false)).point 90).writeAgain = true ∧
    (after (.write .maint) (secondWrite false)).busyWith .maint
      = some (cmdOf 0x08 90 [0x0000, 0x0002, 0x0000, 0x000F] .waitPoint) ∧
    (after (.write .maint) (secondWrite true)).busyWith .maint
      = some (cmdOf 0x08 90 [0x0000, 0x0002, 0x0000, 0x000F] .waitWrite) := by decide +kernel

/-- The record of region 1 of section 6.9, TIMEOUT 5. -/
def regionWords : List Word := [0, 0x0811, 0x0001, 0x0000, 0x0000, 0x0005]

/-- A region or class command on `up` from a port. -/
def plain (p : Port) (code operand : Byte) (ws : List Word) : State := busy up p (cmdOf code operand ws .queued)

/-- The maintenance port against a region that is PRIMARY_ONLY. -/
def guarded : State := (plain .maint 0x09 7 regionWords).setRegion 7 { Region.reset with primaryOnly := true }

theorem witness_RegionCommands :
    (plain .primary 0x09 8 regionWords).NextCommand .primary .setRegion (cmdOf 0x09 8 regionWords .queued) ∧
    (plain .primary 0x09 7 regionWords).NextCommand .primary .setRegion (cmdOf 0x09 7 regionWords .queued) ∧
    guarded.NextCommand .maint .setRegion (cmdOf 0x09 7 regionWords .queued) ∧ (guarded.region 7).primaryOnly = true ∧
    (Region.ofWords (paramWord (cmdOf 0x09 7 regionWords .queued))).Valid ∧
    ¬ (Region.ofWords (paramWord (cmdOf 0x09 7 (regionWords.set 5 0) .queued))).Valid ∧
    ¬ (Region.ofWords (paramWord (cmdOf 0x09 7 (regionWords.set 3 0x0100) .queued))).Valid ∧
    (plain .primary 0x0A 8 []).NextCommand .primary .getRegion (cmdOf 0x0A 8 [] .queued) ∧
    (plain .primary 0x0A 7 []).NextCommand .primary .getRegion (cmdOf 0x0A 7 [] .queued) := by
  unfold Region.Valid
  refine ⟨nextCommand_of_isNext ?_, nextCommand_of_isNext ?_, nextCommand_of_isNext ?_, ?_, ?_, ?_, ?_,
    nextCommand_of_isNext ?_, nextCommand_of_isNext ?_⟩ <;> decide +kernel

theorem test_setRegion_getRegion :
    (after (.setRegion .primary) (plain .primary 0x09 7 regionWords)).region 7
      = ⟨true, 0x010000, 8, false, false, .lowFirst, .device, 0, 5⟩ ∧
    ((after (.setRegion .primary) (plain .primary 0x09 7 regionWords)).slot .primary).area.toList.take 6
      = [7, 0x0811, 0x0001, 0x0000, 0x0000, 0x0005] ∧
    ((after (.setRegion .maint) guarded).slot .maint).result = .isProtected ∧
    ((after (.setRegion .primary) (plain .primary 0x09 0 (regionWords.set 1 0x1111))).slot .primary).result = .badField ∧
    ((after (.getRegion .primary) (plain .primary 0x0A 8 [])).slot .primary).result = .badField := by decide +kernel

theorem witness_ClassCommands :
    (plain .primary 0x0B 4 [5]).NextCommand .primary .setClass (cmdOf 0x0B 4 [5] .queued) ∧
    (plain .primary 0x0B 3 [5]).NextCommand .primary .setClass (cmdOf 0x0B 3 [5] .queued) ∧
    (plain .maint 0x0C 5 []).NextCommand .maint .getClass (cmdOf 0x0C 5 [] .queued) ∧
    (plain .maint 0x0C 4 []).NextCommand .maint .getClass (cmdOf 0x0C 4 [] .queued) ∧ classCode none = 4 := by
  refine ⟨nextCommand_of_isNext ?_, nextCommand_of_isNext ?_, nextCommand_of_isNext ?_, nextCommand_of_isNext ?_, ?_⟩ <;>
    decide +kernel

theorem test_setClass_getClass :
    (after (.setClass .primary) (plain .primary 0x0B 3 [5])).classState 3 = ⟨5, 5, false, none, 0, false⟩ ∧
    ((after (.setClass .primary) (plain .primary 0x0B 4 [5])).slot .primary).result = .badField ∧
    ((after (.getClass .primary) (meterCmd 0x0C 1 [])).slot .primary).area.toList.take 7 = [0, 64, 64, 1, 0, 0, 0] ∧
    ((after (.getClass .primary) (meterCmd 0x0C 4 [])).slot .primary).area.toList.take 7
      = [0, 0x0100, 0x0100, 0, 0, 0, 0] := by decide +kernel

theorem witness_ClearAllEmptiesTheTable :
    (heldCmd 0x0D).NextCommand .primary .clearAll (cmdOf 0x0D 64 [] .queued) ∧ (heldCmd 0x0D).Consistent ∧
    ((heldCmd 0x0D).point 64).holder = some (otherPort .primary) ∧
    (meterCmd 0x0D 0 []).NextCommand .primary .clearAll (cmdOf 0x0D 0 [] .queued) ∧ (meterCmd 0x0D 0 []).Consistent ∧
    (∀ n, ((meterCmd 0x0D 0 []).point n).holder ≠ some (otherPort .primary)) ∧
    (busy meterRunning .primary (cmdOf 0x0D 0 [] .queued)).NextCommand .primary .clearAll (cmdOf 0x0D 0 [] .queued) ∧
    (busy meterRunning .primary (cmdOf 0x0D 0 [] .queued)).Consistent ∧
    (meterRunning.point 64).state.isDefined = true ∧ (meterRunning.point 64).inFlight ≠ .none := by
  refine ⟨nextCommand_of_isNext ?_, consistent_of_checks 64 { meter with holder := some .maint } rfl ?_, ?_,
    nextCommand_of_isNext ?_, consistent_of_checks 64 meter rfl ?_, fun n h => ?_, nextCommand_of_isNext ?_,
    consistent_of_checks 64 { meter with inFlight := .read } rfl ?_, ?_, ?_⟩
  case refine_6 =>
    rw [point_of_points (n := 64) (r := meter) rfl] at h
    split at h <;> exact absurd h (by decide)
  all_goals decide +kernel

theorem test_clearAll :
    ((after (.clearAll .primary) (meterCmd 0x0D 0 [])).slot .primary).area.toList.take 2 = [1, 0] := by decide +kernel

/-- The CMD register of the primary port, with a slot BUSY or not. -/
theorem witness_CmdWriteIsAcceptedOrRefused :
    (spiAt up false Reg.cmd).WritesTo .spi Reg.cmd ∧ (spiAt up false Reg.cmd).busyWith .primary = none ∧
    (plain .primary 0x0E 0 []).NextCommand .primary .unknown (cmdOf 0x0E 0 [] .queued) ∧
    (plain .primary 0xFF 0 []).NextCommand .primary .unknown (cmdOf 0xFF 0 [] .queued) ∧
    ({ up with pointer := Reg.cmd, i2cWriteOpen := true } : State).WritesTo (.i2c 0x4C) Reg.cmd := by
  refine ⟨⟨?_, ?_⟩, ?_, nextCommand_of_isNext ?_, nextCommand_of_isNext ?_, ⟨?_, ?_⟩⟩ <;> decide +kernel

theorem witness_CmdWriteInBusy :
    (spiAt (meterCmd 0x06 64 []) false Reg.cmd).WritesTo .spi Reg.cmd ∧
    (spiAt (meterCmd 0x06 64 []) false Reg.cmd).busyWith .primary = some (cmdOf 0x06 64 [] .queued) ∧
    ((after (.cmdWrite .spi 0x0640) (spiAt (meterCmd 0x06 64 []) false Reg.cmd)).port .primary).collision = true ∧
    (after (.cmdWrite .spi 0x0640) (spiAt up false Reg.cmd)).busyWith .primary = some (cmdOf 0x06 64 [] .queued) ∧
    ((after (.badCommand .primary) (plain .primary 0x0E 0 [])).slot .primary).result = .badCommand := by
  refine ⟨⟨?_, ?_⟩, ?_, ?_, ?_, ?_⟩ <;> decide +kernel

/-- A DONE slot. -/
def doneSlot : State := (plain .primary 0x06 64 []).completeZero .primary .held

theorem witness_DismissReturnsASlotToIdle :
    (spiAt doneSlot false Reg.cmd).WritesTo .spi Reg.cmd ∧ (doneSlot.slot .primary).state = .done ∧
    ((after (.dismiss .spi 0) (spiAt doneSlot false Reg.cmd)).slot .primary).state = .idle ∧
    ((after (.dismiss .spi 0) (spiAt doneSlot false Reg.cmd)).slot .primary).result = .held ∧
    ((after (.dismiss .spi 0) (spiAt (meterCmd 0x06 64 []) false Reg.cmd)).port .primary).collision = true := by
  refine ⟨⟨?_, ?_⟩, ?_, ?_, ?_, ?_⟩ <;> decide +kernel

/-! ### Chains and segments -/

theorem witness_ChainsAppendAndUnlink :
    (one 90 relay).ChainsAgree ∧ ((one 90 relay).point 64).state.isDefined = false ∧
    (one 90 relay).ChainIs none [90] ∧ (one 90 relay).ChainIs (some 3) [] ∧
    ((one 90 relay).point 90).state.isDefined = true := by
  refine ⟨(consistent_of_checks 90 relay rfl ?_).chains, ?_, ⟨⟨rfl, rfl⟩, ?_, ?_, ?_⟩, ⟨rfl, ?_, ?_, ?_⟩, ?_⟩ <;> decide +kernel

theorem witness_SegmentsAreTakenAndReturned :
    (one 10 burst).freeSegs.Pairwise (· < ·) ∧ (one 10 burst).freeSegs.take 1 = [2] ∧
    ((one 10 burst).returnSegments [1, 0]).freeSegs = List.finRange 96 := by
  refine ⟨?_, ?_, ?_⟩ <;> decide +kernel

/-! ### The backplane engine -/

/-- The engine of section 6.9 as the completion of point 3 is taken: three requests wait. -/
def threeWait (last : Requester) (primaryAsks : Option Request) : State :=
  { up with bus := { Bus.reset with
      lastGranted := last, entries := ⟨some ⟨12, false⟩, primaryAsks, some ⟨7, false⟩⟩
      phase := .reporting (scanGrant 3) (up.accessOf meter) ⟨.read, .ok, some 0, none, none, none⟩ } }

theorem witness_EngineGrantsInRotation :
    rotationAfter (threeWait .scan (some ⟨40, true⟩)).bus.lastGranted = [] ++ .slot .primary :: [.slot .maint, .scan] ∧
    (threeWait .scan (some ⟨40, true⟩)).entry (.slot .primary) = some ⟨40, true⟩ ∧
    (threeWait .scan (some ⟨40, true⟩)).busIdle.bus.phase = .granted ⟨40, .slot .primary, true, true⟩ ∧
    rotationAfter (threeWait .scan none).bus.lastGranted = [.slot .primary] ++ .slot .maint :: [.scan] ∧
    (∀ x ∈ [Requester.slot .primary], (threeWait .scan none).entry x = none) ∧
    (threeWait .scan none).entry (.slot .maint) = some ⟨7, false⟩ ∧
    (threeWait (.slot .maint) none).busIdle.bus.lastGranted = .scan ∧
    (∀ r, up.entry r = none) := by
  refine ⟨rfl, rfl, rfl, rfl, ?_, rfl, rfl, ?_⟩
  · intro x hx; obtain rfl := List.mem_singleton.mp hx; rfl
  · intro r; rcases r with _ | _ | _ <;> rfl

/-- A grant taken as a start: point 64 with record `r`, region 0 as `g`, BACK_N at this level. -/
def starting (g : Grant) (r : Point) (x : Region) (back : Bool) : State :=
  { ((one 64 r).setRegion 0 x).setPhase (.granted g) with
    backAsserted := back, scan := { Scan.reset with run := true, req := .requested } }

/-- A WRITE of the maintenance port, granted. -/
def maintWrite : Grant := ⟨64, .slot .maint, true, true⟩

theorem witness_AccessStartFixesTheAccess :
    (starting (scanGrant 64) meter area4k false).bus.phase = .granted (scanGrant 64) ∧
    (starting (scanGrant 64) meter area4k false).loading = false ∧
    ((starting (scanGrant 65) meter area4k false).point 65).state = .free ∧
    ((starting (scanGrant 64) meter area4k false).point 64).state.isDefined = true := by
  refine ⟨rfl, rfl, ?_, ?_⟩ <;> decide +kernel

/-- What an access reports, where its completion waits. -/
def reported (s : State) : Option (Grant × Completion) :=
  match s.bus.phase with
  | .reporting g _ c => some (g, c)
  | .idle | .granted _ | .running _ _ => none

/-- The access whose completion waits, kept with its record and its data (R121, R126). -/
def keptAccess (s : State) : Option Access :=
  match s.bus.phase with
  | .reporting _ a _ => some a
  | .idle | .granted _ | .running _ _ => none

/-- The start of section 6.9: pins, captured region, IN_FLIGHT; the checks at their boundaries; a FREE point. -/
theorem test_accessStart :
    (meterRunning.point 64).inFlight = .read ∧ meterRunning.scan.req = .free ∧
    meterRunning.bus.pins = ⟨0x10, some 0, true, true, true, false, none⟩ ∧
    (after .accessStart (starting (scanGrant 65) meter area4k false)).bus.phase = .idle ∧
    (after .accessStart (starting (scanGrant 64) { meter with offset := 0x0FFE } area4k false)).bus.pins.bcs = some 0 ∧
    reported (after .accessStart (starting (scanGrant 64) { meter with offset := 0x1000 } area4k false))
      = some (scanGrant 64, ⟨.read, .noRegion, none, none, none, none⟩) ∧
    (keptAccess (after .accessStart (starting (scanGrant 64) { meter with offset := 0x1000 } area4k false))).map (·.cap)
      = some area4k ∧
    reported (after .accessStart (starting maintWrite relay { area4k with primaryOnly := true } false))
      = some (maintWrite, ⟨.writeVerify, .isProtected, none, some 0x00012344, none, none⟩) ∧
    (after .accessStart (starting maintWrite relay area4k false)).bus.pins
      = ⟨0x20, some 0, true, true, false, true, some 0x2344⟩ := by decide +kernel

/-- Device pacing: BACK_N asserted holds the strobe back. An 8-bit point at an odd offset uses the high lane. -/
theorem test_accessStart_devicePaced :
    (after .accessStart (starting (scanGrant 64) { meter with width := .w8, offset := 0x11 }
      { area4k with pacing := .device, timeout := 25 } true)).bus.pins = ⟨0x11, some 0, false, true, false, false, none⟩ ∧
    (after .beatRelease (after .accessStart (starting (scanGrant 64) { meter with width := .w8, offset := 0x11 }
      { area4k with pacing := .device, timeout := 25 } true))).bus.pins = ⟨0x11, some 0, false, true, true, false, none⟩ := by
  decide +kernel

/-- An access at a beat, in a stage, region 0 captured with this pacing. -/
def beatOf (k : AccessKind) (w : Width) (beat : Nat) (stage : Stage) (pacing : Pacing) : Access :=
  { up.accessOf meter with
    kind := k, width := w, beat := beat, stage := stage, clks := 5, blockLen := 2
    cap := { area4k with pacing := pacing, timeout := 25 }, driven := 0x00012345 }

/-- The engine runs this access for the scan engine. -/
def runs (a : Access) : State := up.setPhase (.running (scanGrant 64) a)

/-- The two ways a beat ends, at ACCESS_TIME and one acknowledge stage, for the beats the three statements name. -/
theorem witness_BeatEnds :
    (runs (beatOf .read .w8 0 .timed .selfPaced)).BeatEnds (.selfPacedBeatEnd 0xA55A) (scanGrant 64)
      (beatOf .read .w8 0 .timed .selfPaced) 0xA55A ∧
    (runs (beatOf .read .w16 0 .acknowledge .device)).BeatEnds (.beatAcknowledge 0xA55A) (scanGrant 64)
      (beatOf .read .w16 0 .acknowledge .device) 0xA55A ∧
    (runs (beatOf .read .w32 0 .timed .selfPaced)).BeatEnds (.selfPacedBeatEnd 1) (scanGrant 64)
      (beatOf .read .w32 0 .timed .selfPaced) 1 ∧
    (runs (beatOf .read .w32 1 .timed .selfPaced)).BeatEnds (.selfPacedBeatEnd 1) (scanGrant 64)
      (beatOf .read .w32 1 .timed .selfPaced) 1 ∧
    (runs (beatOf .write .w32 1 .timed .selfPaced)).BeatEnds (.selfPacedBeatEnd 0) (scanGrant 64)
      (beatOf .write .w32 1 .timed .selfPaced) 0 ∧
    (runs (beatOf .writeVerify .w32 2 .timed .selfPaced)).BeatEnds (.selfPacedBeatEnd 1) (scanGrant 64)
      (beatOf .writeVerify .w32 2 .timed .selfPaced) 1 ∧
    (runs (beatOf .blockRead .w16 1 .timed .selfPaced)).BeatEnds (.selfPacedBeatEnd 7) (scanGrant 64)
      (beatOf .blockRead .w16 1 .timed .selfPaced) 7 := by
  refine ⟨⟨rfl, .inr ⟨rfl, rfl, rfl, ?_⟩⟩, ⟨rfl, .inl ⟨rfl, rfl, rfl⟩⟩, ⟨rfl, .inr ⟨rfl, rfl, rfl, ?_⟩⟩,
    ⟨rfl, .inr ⟨rfl, rfl, rfl, ?_⟩⟩, ⟨rfl, .inr ⟨rfl, rfl, rfl, ?_⟩⟩, ⟨rfl, .inr ⟨rfl, rfl, rfl, ?_⟩⟩,
    ⟨rfl, .inr ⟨rfl, rfl, rfl, ?_⟩⟩⟩ <;> decide +kernel

/-- The last beat of a two-word block read keeps its word; a count word of 30 into two words announces truncation; the
access that waits in REPORTING keeps its record, its position and its data. -/
theorem test_beats :
    (after (.selfPacedBeatEnd 7) (runs { beatOf .blockRead .w16 1 .timed .selfPaced with staged := [9] })).bus.phase
      = .reporting (scanGrant 64) { beatOf .blockRead .w16 2 .timed .selfPaced with staged := [9, 7] }
          ⟨.blockRead, .ok, none, none, none, some ⟨[9, 7], false⟩⟩ ∧
    reported (after (.selfPacedBeatEnd 0xA500) (runs { beatOf .blockRead .w16 0 .timed .selfPaced with prefixed := true }))
      = some (scanGrant 64, ⟨.blockRead, .ok, none, none, none, some ⟨[], false⟩⟩) ∧
    (after (.selfPacedBeatEnd 0xA51E) (runs { beatOf .blockRead .w16 0 .timed .selfPaced with prefixed := true })).bus.phase
      = .running (scanGrant 64) { beatOf .blockRead .w16 1 .timed .selfPaced with
          prefixed := true, announced := 30, truncated := true, clks := 0 } ∧
    (after (.beatAcknowledge 0xA55A) (runs (beatOf .read .w8 0 .acknowledge .device))).bus.phase
      = .reporting (scanGrant 64) { beatOf .read .w8 1 .acknowledge .device with got := 0x5A }
          ⟨.read, .ok, some 0x5A, none, none, none⟩ ∧
    (after (.selfPacedBeatEnd 1) (runs { beatOf .read .w16 0 .timed .selfPaced with clks := 4 })).bus.phase
      = .running (scanGrant 64) { beatOf .read .w16 0 .timed .selfPaced with clks := 4 } ∧
    (after (.selfPacedBeatEnd 0) (runs (beatOf .write .w32 0 .timed .selfPaced))).bus.pins
      = ⟨0x12, some 0, true, true, false, true, some 0x0001⟩ := by decide +kernel

theorem witness_BackNIsWatchedInItsStage :
    (runs (beatOf .read .w16 0 .release .device)).bus.phase
      = .running (scanGrant 64) (beatOf .read .w16 0 .release .device) ∧
    beatOp (beatOf .read .w16 0 .release .device) = some (.read false) ∧
    beatOp (beatOf .write .w16 0 .release .device) = some (.write false) ∧
    (∀ g a, up.bus.phase = .running g a → a.stage ≠ .release) ∧
    (∀ g a, (runs (beatOf .read .w16 0 .release .device)).bus.phase = .running g a → a.stage ≠ .acknowledge) := by
  refine ⟨rfl, rfl, rfl, ?_, ?_⟩
  · intro g a h
    have h' : BusPhase.idle = .running g a := h
    cases h'
  · rintro g a h
    injection h with _ h
    subst h
    decide

/-- At TIMEOUT × 8 ticks the timeout expires, at one fewer it does not. -/
theorem witness_BeatTimeoutEndsTheAccess :
    (beatOf .read .w16 0 .release .device).stage ≠ .timed ∧
    (beatOf .read .w16 0 .release .device).cap.timeout.toNat * 8 = 200 ∧
    (after .beatTimeout (runs { beatOf .write .w16 0 .acknowledge .device with ticks := 200 })).bus.phase
      = .reporting (scanGrant 64) { beatOf .write .w16 0 .acknowledge .device with ticks := 200 }
          ⟨.write, .timeout, none, some 0x00012345, none, none⟩ ∧
    (keptAccess (after .beatTimeout (runs { beatOf .blockRead .w16 1 .acknowledge .device with
      ticks := 200, staged := [9] }))).map (·.staged) = some [] ∧
    after .beatTimeout (runs { beatOf .write .w16 0 .acknowledge .device with ticks := 199 })
      = runs { beatOf .write .w16 0 .acknowledge .device with ticks := 199 } := by
  refine ⟨?_, ?_, ?_, ?_, rfl⟩ <;> decide +kernel

/-! ### Completions -/

/-- Point 64 with record `r` reports a completion of grant `g`. -/
def reports (r : Point) (g : Grant) (x : Completion) : State :=
  (inArea (one 64 r)).setPhase (.reporting g (up.accessOf r) x)

/-- A good read of a raw value, and a failed one. -/
def goodRead (raw : Long) : Completion := ⟨.read, .ok, some raw, none, none, none⟩
def lateRead : Completion := ⟨.read, .timeout, none, none, none, none⟩

/-- Point 64 with its read in flight, after VALUE, REFERENCE, ALARM and CAUSES of a row of section 4.9. -/
def meterAt (value reference : Long) (alarm : Alarm) (causes : Byte) : Point :=
  { meter with inFlight := .read, value := value, reference := reference, alarm := alarm, causes := causes }

theorem test_accessCompletion_inputs :
    (after .accessCompletion (reports (meterAt 100 100 .normal 0) (scanGrant 64) (goodRead 0x0078))).point 64
      = { meterAt 120 100 .normal 0 with inFlight := .none } ∧
    (after .accessCompletion (reports (meterAt 120 100 .normal 0) (scanGrant 64) (goodRead 0x0334))).point 64
      = { meterAt 820 820 .high 3 with inFlight := .none } ∧
    (after .accessCompletion (reports (meterAt 820 820 .high 0) (scanGrant 64) (goodRead 0x0302))).point 64
      = { meterAt 770 770 .high 1 with inFlight := .none } ∧
    (after .accessCompletion (reports (meterAt 770 770 .high 1) (scanGrant 64) (goodRead 0x02E4))).point 64
      = { meterAt 740 740 .normal 3 with inFlight := .none } ∧
    (after .accessCompletion (reports (meterAt 740 740 .normal 3) (scanGrant 64) (goodRead 0xFF10))).point 64
      = { meterAt (-240) (-240) .low 3 with inFlight := .none } ∧
    (after .accessCompletion (reports (meterAt (-240) (-240) .low 3) (scanGrant 64) (goodRead 0xFF4C))).point 64
      = { meterAt (-180) (-180) .low 3 with inFlight := .none } ∧
    (after .accessCompletion (reports (meterAt 770 770 .high 1) (scanGrant 64) lateRead)).point 64
      = { meterAt 770 770 .high 1 with inFlight := .none, fails := 1 } := by decide +kernel

/-- Section 4.10: the completion that finds the stuck relay, with both slots waiting. -/
def stuckRelay : State :=
  busy (busy ((inArea (one 90 { relay with shadow := 0x00012342, inFlight := .write, writeAgain := true })).setPhase
      (.reporting ⟨90, .slot .primary, true, true⟩ (up.accessOf relay)
        ⟨.writeVerify, .ok, none, some 0x00012345, some 0x00012344, none⟩))
    .primary (cmdOf 0x08 90 [0x0001, 0x2345, 0xFFFF, 0xFFFF] .waitAccess))
    .maint (cmdOf 0x08 90 [0x0000, 0x0002, 0x0000, 0x000F] .waitPoint)

theorem test_accessCompletion_stuckRelay :
    (after .accessCompletion stuckRelay).point 90
      = { relay with shadow := 0x00012342, value := 0x00012344, mismatches := 1, causes := 0x20 } ∧
    ((after .accessCompletion stuckRelay).slot .primary).result = .ok ∧
    ((after .accessCompletion stuckRelay).slot .primary).area.toList.take 8
      = [0x000A, 0xA420, 0x0100, 0x0100, 0x0001, 0x2344, 0x0001, 0x2342] ∧
    (after .accessCompletion stuckRelay).noticeSet 4 = [90] ∧
    (after .accessCompletion stuckRelay).bus.phase = .granted ⟨90, .slot .maint, true, true⟩ := by decide +kernel

/-- Counted completions, good and failed, at the thresholds. -/
theorem witness_CountedCompletions :
    (reports (meterAt 100 100 .normal 0) (scanGrant 64) (goodRead 0x0334)).NextCompletion (scanGrant 64)
      (goodRead 0x0334) ∧
    (reports (meterAt 100 100 .normal 0) (scanGrant 64) (goodRead 0x0334)).Counted (scanGrant 64) ∧
    (reports (meterAt 100 100 .normal 0) (scanGrant 64) (goodRead 0x0334)).NoticesAgree ∧
    (goodRead 0x0334).raw = some 0x0334 ∧
    (reports (meterAt 100 100 .normal 0) (scanGrant 64) lateRead).NextCompletion (scanGrant 64) lateRead ∧
    (reports (meterAt 100 100 .normal 0) (scanGrant 64) lateRead).Counted (scanGrant 64) ∧
    (reports (meterAt 100 100 .normal 0) (scanGrant 64) lateRead).NoticesAgree ∧ lateRead.outcome ≠ .ok := by
  refine ⟨⟨⟨_, rfl⟩, rfl⟩, ⟨?_, ?_⟩, (consistent_of_checks 64 (meterAt 100 100 .normal 0) rfl ?_).notices, rfl, ⟨⟨_, rfl⟩, rfl⟩,
    ⟨?_, ?_⟩, (consistent_of_checks 64 (meterAt 100 100 .normal 0) rfl ?_).notices, ?_⟩ <;> decide +kernel

/-- Health at each threshold (R9): STALE_AT 3, FAULT_AT 6, a failed probe, and STALE_AT equal to FAULT_AT. -/
theorem test_failed_completions :
    ((after .accessCompletion (reports { meterAt 1 1 .normal 0 with fails := 2 } (scanGrant 64) lateRead)).point 64).state
      = .stale ∧
    ((after .accessCompletion
      (reports { meterAt 1 1 .normal 0 with fails := 5, state := .stale } (scanGrant 64) lateRead)).point 64).state
      = .faulted ∧
    ((after .accessCompletion
      (reports { meterAt 1 1 .normal 0 with fails := 6, state := .faulted, probe := 0 } (scanGrant 64) lateRead)).point
        64).probe = 7 ∧
    ((after .accessCompletion
      (reports { meterAt 1 1 .normal 0 with fails := 2, faultAt := 3 } (scanGrant 64) lateRead)).point 64).state
      = .faulted := by decide +kernel

theorem witness_GoodWriteStoresTheValue :
    stuckRelay.NextCompletion ⟨90, .slot .primary, true, true⟩
      ⟨.writeVerify, .ok, none, some 0x00012345, some 0x00012344, none⟩ ∧
    stuckRelay.Counted ⟨90, .slot .primary, true, true⟩ ∧ stuckRelay.NoticesAgree ∧
    (reports relay ⟨64, .scan, false, true⟩ ⟨.write, .ok, none, some 5, none, none⟩).NextCompletion
      ⟨64, .scan, false, true⟩ ⟨.write, .ok, none, some 5, none, none⟩ ∧
    (reports relay ⟨64, .scan, false, true⟩ ⟨.write, .ok, none, some 5, none, none⟩).Counted ⟨64, .scan, false, true⟩ := by
  refine ⟨⟨⟨_, rfl⟩, rfl⟩, ⟨?_, ?_⟩, (consistent_of_checks 90
    { relay with shadow := 0x00012342, inFlight := .write, writeAgain := true } rfl ?_).notices, ⟨⟨_, rfl⟩, rfl⟩, ?_, ?_⟩ <;>
    decide +kernel

/-- `burst`, its block read of two words reported. -/
def burstReports (d : BlockData) : State :=
  (inArea (one 10 { burst with inFlight := .read })).setPhase
    (.reporting (scanGrant 10) (up.accessOf burst) ⟨.blockRead, .ok, none, none, none, some d⟩)

theorem witness_GoodBlockReadIsCommitted :
    (burstReports ⟨[], false⟩).NextCompletion (scanGrant 10) ⟨.blockRead, .ok, none, none, none, some ⟨[], false⟩⟩ ∧
    (burstReports ⟨[], false⟩).Counted (scanGrant 10) ∧ (burstReports ⟨[], false⟩).Consistent ∧
    ((burstReports ⟨[], false⟩).point 10).kind = .block ∧
    (burstReports ⟨List.replicate 9 1, true⟩).Consistent ∧
    (List.replicate 9 (1 : Word)).length ≤ ((burstReports ⟨List.replicate 9 1, true⟩).point 10).blockLen := by
  refine ⟨⟨⟨_, rfl⟩, rfl⟩, ⟨?_, ?_⟩, consistent_of_checks 10 { burst with inFlight := .read } rfl ?_, ?_,
    consistent_of_checks 10 { burst with inFlight := .read } rfl ?_, ?_⟩ <;> decide +kernel

theorem test_accessCompletion_block :
    (after .accessCompletion (burstReports ⟨[1, 2, 3, 4, 5, 6, 7, 8, 9], true⟩)).point 10
      = { burst with state := .active, lastLen := 9, value := 1, causes := 0x41 } ∧
    (after .accessCompletion (burstReports ⟨[1, 2, 3, 4, 5, 6, 7, 8, 9], true⟩)).segWords[1]
      = #v[9, 0, 0, 0, 0, 0, 0, 0] := by decide +kernel

/-- Point 64 is RETIRING, and the primary RETIRE waits for its access. -/
def lastAccess : State :=
  busy (reports { meter with state := .retiring, inFlight := .read } (scanGrant 64) lateRead) .primary
    (cmdOf 0x03 64 [] (.waitFree 64 0))

/-- Point 64 or 90 was redefined under its access; each slot waits with this command. -/
def redefinedUnder (r : Point) (g : Grant) (primary maint : Command) : State :=
  busy (busy (reports { r with redefined := true } g lateRead) .primary primary) .maint maint

theorem witness_UncountedCompletionsAreDiscarded :
    lastAccess.NextCompletion (scanGrant 64) lateRead ∧ (lastAccess.point 64).state = .retiring ∧
    (lastAccess.point 64).causes = 0 ∧ lastAccess.freeSegs.Pairwise (· < ·) ∧
    lastAccess.busyWith .primary = some (cmdOf 0x03 64 [] (.waitFree 64 0)) ∧
    ((after .accessCompletion lastAccess).slot .primary).result = .ok ∧
    (after .accessCompletion lastAccess).point 64 = Point.free ∧
    ((redefinedUnder (meterAt 1 1 .normal 0) (scanGrant 64) (cmdOf 0x07 64 [] .waitPoint)
      (cmdOf 0x06 1 [] .queued)).point 64).redefined = true ∧
    (redefinedUnder (meterAt 1 1 .normal 0) (scanGrant 64) (cmdOf 0x07 64 [] .waitPoint)
      (cmdOf 0x06 1 [] .queued)).WaitsIn .primary .readNow .waitPoint 64 ∧
    ((after .accessCompletion (redefinedUnder (meterAt 1 1 .normal 0) (scanGrant 64) (cmdOf 0x07 64 [] .waitPoint)
      (cmdOf 0x06 1 [] .queued))).slot .primary).result = .redefined := by
  refine ⟨⟨⟨_, rfl⟩, rfl⟩, ?_, ?_, ?_, ?_, ?_, ?_, ?_, ⟨cmdOf 0x07 64 [] .waitPoint, ?_, ?_, ?_, ?_⟩, ?_⟩ <;> decide +kernel

/-- Point 64 as `relay`, redefined under the write of the primary slot, with a write owed or not; the maintenance slot waits
with this command. -/
def discarded (again : Bool) (maint : Command) : State :=
  redefinedUnder { relay with inFlight := .write, writeAgain := again } ⟨64, .slot .primary, true, true⟩
    (cmdOf 0x08 64 [] .waitAccess) maint

/-- A redefined OUTPUT point: the WRITE whose write was discarded joins the owed one, or asks again; a WRITE already joined
to the owed one stays. -/
theorem witness_DiscardedWrites :
    (discarded true (cmdOf 0x08 64 [] .waitPoint)).WaitsIn .primary .write .waitAccess 64 ∧
    (discarded true (cmdOf 0x08 64 [] .waitPoint)).WaitsIn .maint .write .waitPoint 64 ∧
    (after .accessCompletion (discarded true (cmdOf 0x08 64 [] .waitPoint))).busyWith .primary
      = some (cmdOf 0x08 64 [] .waitWrite) ∧
    (after .accessCompletion (discarded true (cmdOf 0x08 64 [] .waitPoint))).busyWith .maint
      = some (cmdOf 0x08 64 [] .waitGrant) ∧
    (after .accessCompletion (discarded false (cmdOf 0x06 1 [] .queued))).bus.phase
      = .granted ⟨64, .slot .primary, true, true⟩ ∧
    (discarded false (cmdOf 0x08 64 [] .waitWrite)).WaitsIn .maint .write .waitWrite 64 ∧
    (after .accessCompletion (discarded false (cmdOf 0x08 64 [] .waitWrite))).busyWith .maint
      = some (cmdOf 0x08 64 [] .waitWrite) := by
  refine ⟨⟨cmdOf 0x08 64 [] .waitAccess, ?_, ?_, ?_, ?_⟩, ⟨cmdOf 0x08 64 [] .waitPoint, ?_, ?_, ?_, ?_⟩, ?_, ?_, ?_,
    ⟨cmdOf 0x08 64 [] .waitWrite, ?_, ?_, ?_, ?_⟩, ?_⟩ <;>
    decide +kernel

/-- A counted access of the primary slot's own READ_NOW, with another READ_NOW that waited for it. -/
def ownRead : State :=
  busy (busy (reports (meterAt 1 1 .normal 0) ⟨64, .slot .primary, false, true⟩ (goodRead 7)) .primary
    (cmdOf 0x07 64 [] .waitAccess)) .maint (cmdOf 0x07 64 [] .waitPoint)

/-- The primary slot's own write, with the other slot's WRITE joined to it. -/
def joined : State :=
  busy (busy (reports { relay with inFlight := .write } ⟨64, .slot .primary, true, true⟩
      ⟨.write, .ok, none, some 5, none, none⟩) .primary
    (cmdOf 0x08 64 [] .waitAccess)) .maint (cmdOf 0x08 64 [] .waitWrite)

/-- The scan engine's refresh write, with a WRITE of the maintenance slot joined to the owed write of the primary slot, which
asks for it. -/
def joinedOwed : State :=
  busy (busy (reports { relay with inFlight := .write, writeAgain := true } (scanGrant 64)
      ⟨.write, .ok, none, some 5, none, none⟩) .primary
    (cmdOf 0x08 64 [] .waitPoint)) .maint (cmdOf 0x08 64 [] .waitWrite)

/-- What the completion asks of the engine is what `CountedAsks` names. -/
theorem witness_CountedAsks :
    joinedOwed.CountedAsks 64 .primary ⟨64, true⟩ ∧ ownRead.CountedAsks 64 .maint ⟨64, false⟩ ∧
    joinedOwed.WaitsIn .maint .write .waitWrite 64 ∧
    (after .accessCompletion joinedOwed).busyWith .maint = some (cmdOf 0x08 64 [] .waitWrite) ∧
    (after .accessCompletion joinedOwed).busyWith .primary = some (cmdOf 0x08 64 [] .waitGrant) ∧
    (after .accessCompletion joinedOwed).bus.phase = .granted ⟨64, .slot .primary, true, true⟩ := by
  refine ⟨.inr ⟨⟨cmdOf 0x08 64 [] .waitPoint, ?_, ?_, ?_, ?_⟩, ?_, ?_⟩, .inl ⟨⟨cmdOf 0x07 64 [] .waitPoint, ?_, ?_, ?_, ?_⟩, ?_⟩,
    ⟨cmdOf 0x08 64 [] .waitWrite, ?_, ?_, ?_, ?_⟩, ?_, ?_, ?_⟩ <;> decide +kernel

theorem witness_CountedCompletionMovesTheCommands :
    ownRead.NextCompletion ⟨64, .slot .primary, false, true⟩ (goodRead 7) ∧
    ownRead.Counted ⟨64, .slot .primary, false, true⟩ ∧ ownRead.WaitsIn .primary .readNow .waitAccess 64 ∧
    ownRead.WaitsIn .maint .readNow .waitPoint 64 ∧ stuckRelay.WaitsIn .maint .write .waitPoint 90 ∧
    (stuckRelay.point 90).writeAgain = true ∧ joined.WaitsIn .primary .write .waitAccess 64 ∧
    joined.WaitsIn .maint .write .waitWrite 64 ∧ joined.Counted ⟨64, .slot .primary, true, true⟩ ∧
    ((after .accessCompletion joined).slot .maint).result = .ok ∧
    ((after .accessCompletion ownRead).slot .primary).state = .done ∧
    (after .accessCompletion ownRead).bus.phase = .granted ⟨64, .slot .maint, false, true⟩ := by
  refine ⟨⟨⟨_, rfl⟩, rfl⟩, ⟨?_, ?_⟩, ⟨cmdOf 0x07 64 [] .waitAccess, ?_, ?_, ?_, ?_⟩, ⟨cmdOf 0x07 64 [] .waitPoint, ?_, ?_, ?_, ?_⟩,
    ⟨cmdOf 0x08 90 [0x0000, 0x0002, 0x0000, 0x000F] .waitPoint, ?_, ?_, ?_, ?_⟩, ?_,
    ⟨cmdOf 0x08 64 [] .waitAccess, ?_, ?_, ?_, ?_⟩, ⟨cmdOf 0x08 64 [] .waitWrite, ?_, ?_, ?_, ?_⟩, ⟨?_, ?_⟩, ?_, ?_, ?_⟩ <;>
    decide +kernel

/-! ### The scan engine -/

/-- The scan engine with SCAN_RUN set and class 1 as given, on the state with point 64. -/
def scanning (x : ClassState) : State :=
  { inArea (one 64 meter) with scan := { Scan.reset with run := true, classes := Scan.reset.classes.set 1 x } }

/-- An IDLE class with an empty chain, one with a member, and a class in pass whose OVERRUN_COUNT stands at 255. -/
theorem witness_ExpiryStartsAPassOrCountsAnOverrun :
    (scanning ⟨2, 0, false, none, 0, false⟩).scan.run = true ∧
    (scanning ⟨2, 0, false, none, 0, false⟩).loading = false ∧
    ((scanning ⟨2, 0, false, none, 0, false⟩).classState 1).period ≠ 0 ∧
    ((scanning ⟨2, 0, false, none, 0, false⟩).classState 1).remaining = 0 ∧
    ((scanning ⟨2, 0, false, none, 0, false⟩).chain (some 1)).head = some 64 ∧
    ((scanning ⟨2, 0, false, none, 0, false⟩).chain (some 2)).head = none ∧
    (after (.classTimerExpiry 1) (scanning ⟨2, 0, false, none, 0, false⟩)).classState 1
      = ⟨2, 2, true, some 64, 0, false⟩ ∧
    (after (.classTimerExpiry 1) (scanning ⟨2, 0, true, some 64, 255, false⟩)).classState 1
      = ⟨2, 2, true, some 64, 255, true⟩ ∧
    (after (.classTimerExpiry 1) (scanning ⟨2, 1, false, none, 0, false⟩)).classState 1 = ⟨2, 1, false, none, 0, false⟩ :=
  by decide +kernel

/-- Class 1 as given, on the period that ends the millisecond. -/
def tickDue (x : ClassState) : State := { scanning x with timebase := ⟨24, 999⟩ }

/-- One period short of the 1 ms tick, and the tick itself; a count at 0 with its class IDLE, one in pass, and one whose chain
is empty. -/
theorem witness_TimebaseCountsPeriods :
    25 ≤ (tickDue ⟨2, 2, false, none, 0, false⟩).timebase.clk + 1 ∧
    1000 ≤ (tickDue ⟨2, 2, false, none, 0, false⟩).timebase.us + 1 ∧
    (after (.timebaseTick 1) (tickDue ⟨2, 2, false, none, 0, false⟩)).classState 1 = ⟨2, 1, false, none, 0, false⟩ ∧
    (after (.timebaseTick 1) (tickDue ⟨2, 2, false, none, 0, false⟩)).timebase = ⟨0, 0⟩ ∧
    (after (.timebaseTick 1) { tickDue ⟨2, 2, false, none, 0, false⟩ with timebase := ⟨23, 999⟩ }).timebase = ⟨24, 999⟩ ∧
    (after (.timebaseTick 1) (tickDue ⟨2, 0, false, none, 0, false⟩)).classState 1 = ⟨2, 1, true, some 64, 0, false⟩ ∧
    (after (.timebaseTick 1) (tickDue ⟨2, 0, true, some 64, 255, false⟩)).classState 1 = ⟨2, 1, true, some 64, 255, true⟩ ∧
    ((tickDue ⟨2, 0, false, none, 0, false⟩).chain (some 1)).head = some 64 ∧
    ((tickDue ⟨2, 0, false, none, 0, false⟩).chain (some 2)).head = none ∧
    (after (.timebaseTick 26) (runs (beatOf .read .w16 0 .acknowledge .device))).bus.phase
      = .running (scanGrant 64) { beatOf .read .w16 0 .acknowledge .device with clks := 31, ticks := 1 } := by
  decide +kernel

/-- The scan engine with a sweep, pending flags and class 1's pass as given. -/
def choosing (sweep : Option RegionNo) (flags : Vector Bool 8) (pass : Bool) : State :=
  let s := scanning ⟨2, 2, pass, if pass then some 64 else none, 0, false⟩
  { s with scan := { s.scan with sweep := sweep, pendingFlags := flags } }

theorem witness_ScanChoosesByPriority :
    (choosing (some 4) (Vector.replicate 8 true) true).scan.req = .free ∧
    (choosing (some 4) (Vector.replicate 8 true) true).scan.run = true ∧
    (choosing (some 4) (Vector.replicate 8 true) true).loading = false ∧
    (choosing none #v[false, false, true, true, false, false, false, true] true).pendingFlag 2 = true ∧
    (∀ x, x < 2 → (choosing none #v[false, false, true, true, false, false, false, true] true).pendingFlag x = false) ∧
    (∀ x, (choosing none (Vector.replicate 8 false) true).pendingFlag x = false) ∧
    ((choosing none (Vector.replicate 8 false) true).classState 1).inPass = true ∧
    (∀ x : ClassNo, x < 1 → ((choosing none (Vector.replicate 8 false) true).classState x).inPass = false) ∧
    (∀ c, ((choosing none (Vector.replicate 8 false) false).classState c).inPass = false) ∧
    (allAsk .scan).scan.req ≠ .free ∧ up.scan.run = false ∧ State.reset.loading = true := by decide +kernel

theorem test_scanChoose :
    (after .scanChoose (choosing (some 4) (Vector.replicate 8 true) true)).scan.req = .visiting (.sweep 4) ∧
    (after .scanChoose (choosing none #v[false, false, true, true, false, false, false, true] true)).scan.req
      = .visiting (.sweep 2) ∧
    (after .scanChoose (choosing none #v[false, false, true, true, false, false, false, true] true)).scan.pendingFlags
      = #v[false, false, false, true, false, false, false, true] ∧
    (after .scanChoose (choosing none (Vector.replicate 8 false) true)).scan.req = .visiting (.pass 1) ∧
    (after .scanChoose (choosing none (Vector.replicate 8 false) false)).scan.req = .free := by decide +kernel

/-- A visit of this work waits at the table engine; one record `r` at point `n`. -/
def visiting (n : PointNo) (r : Point) (w : ScanWork) (cursor : Option PointNo) (sweepCursor : Nat) : State :=
  { inArea (one n r) with scan := { Scan.reset with
      run := true, req := .visiting w, sweepCursor := sweepCursor
      sweep := match w with | .sweep x => some x | .pass _ => none
      classes := Scan.reset.classes.set 1 ⟨2, 2, cursor.isSome, cursor, 0, false⟩ } }

/-- A visit of a pass at a point and at END; of a sweep below 255, at 255, and with no point left. -/
theorem witness_VisitRulesAndMovesTheCursor :
    (visiting 64 meter (.pass 1) (some 64) 0).tableTurn = some .scan ∧
    (visiting 64 meter (.pass 1) (some 64) 0).EngineAgrees ∧
    ((visiting 64 meter (.pass 1) (some 64) 0).classState 1).cursor = some 64 ∧
    ((visiting 64 meter (.pass 1) none 0).classState 1).cursor = none ∧
    (after .visit (visiting 64 meter (.pass 1) none 0)).scan.req = .free ∧
    (after .visit (visiting 64 meter (.pass 1) (some 64) 0)).bus.phase = .granted (scanGrant 64) ∧
    (after .visit (visiting 64 meter (.pass 1) (some 64) 0)).classState 1 = ⟨2, 2, false, none, 0, false⟩ ∧
    (visiting 64 { meter with attnRead := true } (.sweep 0) none 64).qualifies 0 64 = true ∧
    (after .visit (visiting 64 { meter with attnRead := true } (.sweep 0) none 64)).scan.sweepCursor = 65 ∧
    (after .visit (visiting 255 { meter with attnRead := true } (.sweep 0) none 255)).scan.sweep = none ∧
    (after .visit (visiting 64 { meter with attnRead := true } (.sweep 0) none 65)).scan.sweep = none ∧
    (after .visit (visiting 64 { meter with attnRead := true } (.sweep 0) none 65)).scan.req = .free := by
  refine ⟨?_, ?_, ?_, ?_, ?_, ?_, ?_, ?_, ?_, ?_, ?_, ?_⟩
  case refine_2 => intro _ r; rcases r with _ | _ | _ <;> rfl
  all_goals decide +kernel

/-- The ruling of R62: a FAULTED point with PROBE 1 is skipped and its PROBE falls to 0; with PROBE 0 it is accessed. -/
theorem test_visit_of_a_faulted_point :
    ((after .visit (visiting 64 { meter with state := .faulted, fails := 6, probe := 1 } (.pass 1) (some 64) 0)).point
      64).probe = 0 ∧
    (after .visit (visiting 64 { meter with state := .faulted, fails := 6, probe := 1 } (.pass 1) (some 64) 0)).bus.phase
      = .idle ∧
    (after .visit (visiting 64 { meter with state := .faulted, fails := 6, probe := 0 } (.pass 1) (some 64) 0)).bus.phase
      = .granted (scanGrant 64) := by decide +kernel

/-! ### The attention unit -/

/-- Line 2 in this mode, mapped to region 4, at this level. -/
def lineAt (mode : LineMode) (high : Bool) : State := up.setLine 2 ⟨mode, 4, high, false⟩

theorem witness_AttentionEventsSetTheFlag :
    ((lineAt .rise false).line 2).live ≠ true ∧ ((lineAt .fall true).line 2).live ≠ false ∧
    ((lineAt .high false).line 2).live ≠ true ∧ ((lineAt .low true).line 2).live ≠ false ∧
    (lineAt .rise false).loading = false ∧ State.reset.loading = true := by decide +kernel

theorem test_atnEvent :
    (after (.atnEvent 2 true) (lineAt .rise false)).pendingFlag 4 = true ∧
    ((after (.atnEvent 2 true) (lineAt .rise false)).line 2) = ⟨.rise, 4, true, true⟩ ∧
    (after (.atnEvent 2 true) (lineAt .fall false)).pendingFlag 4 = false ∧
    (after (.atnEvent 2 true) (lineAt .high false)).pendingFlag 4 = true ∧
    ((after (.atnEvent 2 true) (lineAt .high false)).line 2) = ⟨.high, 4, true, false⟩ ∧
    (after (.atnEvent 2 false) (lineAt .high true)).pendingFlag 4 = true ∧
    (after (.attentionFlagSetAgain 2) (lineAt .low false)).pendingFlag 4 = true ∧
    (after (.attentionFlagSetAgain 2) (lineAt .rise true)).pendingFlag 4 = false := by decide +kernel

/-- Writes at lines 2 and 3 (ATTN_CONFIG_1), ATTN_STATE and CLASS_STATE. -/
theorem witness_AttentionAndClassWrites :
    (spiAt up false (Reg.attnConfig 3)).WritesTo .spi (Reg.attnConfig 3) ∧
    (spiAt up false Reg.attnState).WritesTo .spi Reg.attnState ∧
    (spiAt up false Reg.classState).WritesTo .spi Reg.classState ∧ Reg.attnConfig 3 = 0x15 := by
  refine ⟨⟨?_, ?_⟩, ⟨?_, ?_⟩, ⟨?_, ?_⟩, ?_⟩ <;> decide +kernel

theorem test_attention_writes :
    (after (.attnConfigWrite .spi 1 0x00B4) (spiAt (lineAt .off true) false 0x13)).line 2 = ⟨.high, 4, true, false⟩ ∧
    (after (.attnConfigWrite .spi 1 0x00B4) (spiAt (lineAt .off true) false 0x13)).pendingFlag 4 = true ∧
    (after (.attnConfigWrite .spi 1 0x34F5) (spiAt (lineAt .rise false) false 0x13)).line 2 = ⟨.off, 5, false, false⟩ ∧
    (after (.attnConfigWrite .spi 1 0x34F5) (spiAt (lineAt .rise false) false 0x13)).line 3 = ⟨.off, 0, false, false⟩ ∧
    ((after (.edgeSeenClear .spi 0x0400) (spiAt (up.setLine 2 ⟨.rise, 4, true, true⟩) false 0x16)).line 2).edgeSeen
      = false ∧
    ((after (.overrunClear .spi 0x0020) (spiAt (scanning ⟨2, 2, false, none, 9, true⟩) false 0x18)).classState 1)
      = ⟨2, 2, false, none, 9, false⟩ := by decide +kernel

/-! ### The notification unit -/

/-- The sets of section 8.6, with points 20, 33, 51 and 70. -/
def levels : State :=
  { up with
    points := (((up.points.set 20 { meter with level := 1, causes := 0x08, value := 415 }).set 33
      { meter with level := 4, causes := 0x01, value := 12 }).set 51
      { meter with level := 4, causes := 0x03, value := 900 }).set 70
      { meter with level := 6, causes := 0x04, value := 7 }
    notify := {
      sets := #v[[], [20], [], [], [33, 51], [], [70], []], mask := 0x12, type := 0x02
      order := #v[1, 4, 0, 2, 3, 5, 6, 7], orderErr := false, notifyEn := true } }

/-- `levels` with level 1 empty, as after the two acknowledges. -/
def levelsAcked : State := after (.ack .spi 0x1408) (spiAt levels false Reg.ack)

theorem test_claim :
    ((after (.claim .spi) (spiAt levels true 0x0C)).port .primary).sent = 0x0014 ∧
    ((after (.claim .spi) (spiAt levels true 0x0C)).port .primary).claimCauses = 0x1408 ∧
    (after (.claim .spi) (spiAt levels true 0x0C)).noticeSet 1 = [20] ∧
    levelsAcked.noticeSet 1 = [] ∧ (levelsAcked.point 20).causes = 0 ∧
    ((after (.claim .spi) (spiAt levelsAcked true 0x0C)).port .primary).claimValue = 12 ∧
    (after (.claim .spi) (spiAt levelsAcked true 0x0C)).noticeSet 4 = [51] ∧
    ((after (.claim .spi) (spiAt levelsAcked true 0x0C)).point 33).causes = 0 := by decide +kernel

/-- A set per level and its members in agreement, point by point. -/
theorem levels_noticesAgree (isRead : Bool) (a : BitVec 7) : (spiAt levels isRead a).NoticesAgree := by
  have h : levels.NoticesAgree := ⟨by decide +kernel, by decide +kernel⟩
  exact h

/-- An open level of the order, a selected closed level, a selected empty level, and nothing to claim. -/
theorem witness_ClaimTakesTheFirstNotice :
    (spiAt levels true Reg.claim).ReadsFrom .spi Reg.claim ∧ (spiAt levels true Reg.claim).NoticesAgree ∧
    ((spiAt levels true Reg.claim).port .primary).claimLevel = none ∧
    (spiAt levels true Reg.claim).notify.order.toList = [] ++ 1 :: [4, 0, 2, 3, 5, 6, 7] ∧
    (spiAt levels true Reg.claim).notify.mask.getLsbD 1 = true ∧ 20 ∈ (spiAt levels true Reg.claim).noticeSet 1 ∧
    ((after (.claim .spi) ((spiAt levels true Reg.claim).setPort .primary
      { levels.primary with claimLevel := some 6 })).port .primary).sent = 70 ∧
    ((after (.claim .spi) ((spiAt levels true Reg.claim).setPort .primary
      { levels.primary with claimLevel := some 7 })).port .primary).sent = 0x0100 ∧
    ((after (.claim .spi) (spiAt up true Reg.claim)).port .primary).sent = 0x0100 :=
  ⟨⟨rfl, rfl⟩, levels_noticesAgree _ _, rfl, rfl, by decide +kernel, by decide +kernel, by decide +kernel,
    by decide +kernel, by decide +kernel⟩

theorem witness_NotificationWrites :
    (spiAt levels false Reg.ack).WritesTo .spi Reg.ack ∧ (spiAt levels false Reg.ack).NoticesAgree ∧
    (spiAt up false Reg.claimLevel).WritesTo .spi Reg.claimLevel ∧
    (spiAt up false Reg.levelMask).WritesTo .spi Reg.levelMask ∧
    (spiAt up false Reg.levelType).WritesTo .spi Reg.levelType ∧
    (spiAt up false Reg.levelOrderLo).WritesTo .spi Reg.levelOrderLo ∧
    (spiAt up false Reg.levelOrderHi).WritesTo .spi Reg.levelOrderHi :=
  ⟨⟨rfl, rfl⟩, levels_noticesAgree _ _, ⟨rfl, rfl⟩, ⟨rfl, rfl⟩, ⟨rfl, rfl⟩, ⟨rfl, rfl⟩, ⟨rfl, rfl⟩⟩

theorem test_notification_writes :
    ((after (.ack .spi 0x3301) (spiAt levels false Reg.ack)).point 51).causes = 0x02 ∧
    (after (.ack .spi 0x3301) (spiAt levels false Reg.ack)).noticeSet 4 = [33, 51] ∧
    ((after (.claimLevel .spi 7) (spiAt up false Reg.claimLevel)).port .primary).claimLevel = some 7 ∧
    ((after (.claimLevel .spi 8) (spiAt up false Reg.claimLevel)).port .primary).claimLevel = none ∧
    (after (.levelMask .spi 0xA512) (spiAt up false Reg.levelMask)).notify.mask = 0x12 ∧
    (after (.levelType .spi 0xA502) (spiAt up false Reg.levelType)).notify.type = 0x02 ∧
    ((after (.levelOrderLo .spi 0x2041) (spiAt up false Reg.levelOrderLo)).port .primary).stagedLo = 0x2041 ∧
    (after (.levelOrderHi .spi 0x7653) (spiAt (after (.levelOrderLo .spi 0x2041) (spiAt up false Reg.levelOrderLo))
      false Reg.levelOrderHi)).notify.order = #v[1, 4, 0, 2, 3, 5, 6, 7] ∧
    (after (.levelOrderHi .spi 0x7656) (spiAt up false Reg.levelOrderHi)).notify.orderErr = true := by decide +kernel

theorem witness_InterruptLineFollowsItsConditions :
    levels.intAsserted = true ∧ up.intAsserted = false ∧ State.reset.LoadingQuiet ∧ State.reset.loading = true := by
  refine ⟨by decide +kernel, by decide +kernel, fun _ => ⟨rfl, ?_, ?_, rfl, rfl, ?_, rfl⟩, by decide +kernel⟩
  · intro r; rcases r with _ | _ | _ <;> rfl
  · intro p; cases p <;> rfl
  · decide +kernel

/-! ### The ports and the resets -/

/-- The scan engine has a pass in progress and a request waiting behind another access. -/
def scanWaits : State :=
  let s := scanning ⟨2, 2, true, some 64, 0, false⟩
  { s with
    scan := { s.scan with req := .requested }
    bus := { s.bus with
      entries := ⟨some ⟨64, false⟩, none, none⟩, phase := .running (scanGrant 3) (beatOf .read .w16 0 .timed .selfPaced) } }

/-- The CONTROL register from both lines; SCAN_RUN set and cleared; a waiting request, a granted one, and none. -/
theorem witness_ControlWritesAreApplied :
    AppliesControl (.scanRunClear .spi true false) .spi false true false ∧
    AppliesControl (.scanRunSet .spi true false) .spi true true false ∧
    AppliesControl (.notifyEn .spi true true false) .spi true true false ∧
    AppliesControl (.doneInt .spi true true false) .spi true false true ∧
    AppliesControl (.warm (.i2c 0x4C) true true true) (.i2c 0x4C) true true true ∧
    (spiAt scanWaits false Reg.control).WritesTo .spi Reg.control ∧
    ({ up with pointer := Reg.control, i2cWriteOpen := true } : State).WritesTo (.i2c 0x4C) Reg.control ∧
    scanWaits.scan.req = .requested ∧ scanWaits.entry .scan ≠ none ∧
    ({ meterRunning with scan := { meterRunning.scan with req := .requested } } : State).entry .scan = none ∧
    (choosing (some 4) (Vector.replicate 8 true) true).scan.req ≠ .requested :=
  ⟨.inr (.inl ⟨rfl, rfl⟩), .inl ⟨rfl, rfl⟩, .inr (.inr (.inl rfl)), .inr (.inr (.inr (.inl rfl))),
    .inr (.inr (.inr (.inr ⟨rfl, rfl⟩))), ⟨rfl, rfl⟩, ⟨rfl, rfl⟩, rfl, by decide +kernel, rfl, by decide +kernel⟩

theorem test_control :
    (after (.scanRunClear .spi true false) (spiAt scanWaits false Reg.control)).scan
      = { Scan.reset with classes := Scan.reset.classes.set 1 ⟨2, 2, false, none, 0, false⟩ } ∧
    (after (.scanRunClear .spi true false) (spiAt scanWaits false Reg.control)).entry .scan = none ∧
    (after (.scanRunSet .spi true false) (spiAt up false Reg.control)).scan.run = true ∧
    (after (.notifyEn .spi true true false) (spiAt up false Reg.control)).notify.notifyEn = true ∧
    ((after (.doneInt .spi true true false) (spiAt up false Reg.control)).port .primary).doneInt = true ∧
    (after (.warm (.i2c 0x4C) true true true) { up with pointer := Reg.control, i2cWriteOpen := true }).scan.run
      = true := by decide +kernel

/-- A warm reset finds point 64 RETIRING with its access in flight, and the primary RETIRE waiting for it. -/
theorem witness_WarmResetEndsTheWork :
    Via.spi.port = .primary ∧ (spiAt lastAccess false Reg.control).WritesTo .spi Reg.control ∧
    (spiAt lastAccess false Reg.control).freeSegs.Pairwise (· < ·) ∧ (lastAccess.point 64).state = .retiring ∧
    lastAccess.busyWith .primary ≠ none ∧ lastAccess.busyWith .maint = none :=
  ⟨rfl, ⟨rfl, rfl⟩, by decide +kernel, by decide +kernel, by decide +kernel, rfl⟩

theorem test_warm :
    ((after (.warm .spi true true true) (spiAt lastAccess false Reg.control)).slot .primary).result = .aborted ∧
    (after (.warm .spi true true true) (spiAt lastAccess false Reg.control)).bus.phase = .idle := by decide +kernel

/-- The primary block area at this address; parameter word k is k, result word k is 0x100 + k. -/
def blockArea (isRead : Bool) (a : BitVec 7) : State :=
  { spiAt up isRead Reg.blkData with primary := { up.primary with
      blkAddr := a, params := tabulate 16 fun k => BitVec.ofNat 16 k
      slot := { up.primary.slot with area := tabulate 64 fun k => BitVec.ofNat 16 (0x100 + k) } } }

/-- The block area at its boundaries: 15, 16, 79, 80 and 127; the framing of both ports. -/
theorem witness_BlockAreaAndFraming :
    (blockArea true 15).ReadsFrom .spi Reg.blkData ∧ (blockArea false 15).WritesTo .spi Reg.blkData ∧
    ((after (.blkDataRead .spi) (blockArea true 15)).port .primary).sent = 15 ∧
    ((after (.blkDataRead .spi) (blockArea true 16)).port .primary).sent = 0x100 ∧
    ((after (.blkDataRead .spi) (blockArea true 79)).port .primary).sent = 0x13F ∧
    ((after (.blkDataRead .spi) (blockArea true 80)).port .primary).sent = 0 ∧
    ((after (.blkDataRead .spi) (blockArea true 127)).port .primary).blkAddr = 0 ∧
    ((after (.blkDataWrite .spi 0xBEEF) (blockArea false 15)).port .primary).params[15] = 0xBEEF ∧
    (after (.blkDataWrite .spi 0xBEEF) (blockArea false 16)).port .primary
      = { (blockArea false 17).port .primary with blkAddr := 17 } ∧
    up.spi = .ready ∧ up.i2cAddr = 0x4C ∧ up.loading = false ∧ (0x4D : BitVec 7) ≠ up.i2cAddr := by
  refine ⟨⟨rfl, rfl⟩, ⟨rfl, rfl⟩, ?_, ?_, ?_, ?_, ?_, ?_, ?_, rfl, rfl, rfl, ?_⟩ <;> decide +kernel

theorem test_framing :
    (after (.commandByte 0x86) up).spi = .active true 0x06 ∧ (after (.commandByte 0x06) up).spi = .active false 0x06 ∧
    (after (.commandByte 0x86) up).sdo = .low ∧ (after (.blkDataRead .spi) (blockArea true 16)).sdo = .word 0x100 ∧
    (after .transferEnd (spiAt up true 3)).spi = .ready ∧ (after .transferEnd { up with sdo := .low }).sdo = .undriven ∧
    (after (.pointerWrite 0x4C 0x8C) up).pointer = 0x0C ∧ (after (.pointerWrite 0x4C 0x8C) up).i2cWriteOpen = true ∧
    (after (.pointerWrite 0x4D 0x0C) up).pointer = 0 ∧ (after (.pointerWrite 0x4C 0x0C) State.reset).pointer = 0 ∧
    (after (.cmdWrite (.i2c 0x4C) 0x0640) (after (.pointerWrite 0x4C 0x04) up)).busyWith .maint
      = some (cmdOf 0x06 0x40 [] .queued) := by decide +kernel

/-- What a command byte, a pointer byte and a read on I2C open and close. -/
theorem witness_FramingOpensAndCloses :
    (after (.commandByte 0x06) up).WritesTo .spi Reg.blkData ∧ (after (.commandByte 0x86) up).ReadsFrom .spi Reg.blkData ∧
    ¬ (after (.commandByte 0x86) up).WritesTo .spi Reg.blkData ∧
    (after (.pointerWrite 0x4C 0x06) up).WritesTo (.i2c 0x4C) Reg.blkData ∧
    (after (.pointerWrite 0x4C 0x06) up).ReadsFrom (.i2c 0x4C) Reg.blkData ∧
    ¬ (after (.blkDataRead (.i2c 0x4C)) (after (.pointerWrite 0x4C 0x06) up)).WritesTo (.i2c 0x4C) Reg.blkData := by
  unfold State.WritesTo State.ReadsFrom
  decide +kernel

theorem witness_RegisterWritesAreTakenOrIgnored :
    (spiAt up false Reg.status).WritesTo .spi Reg.status ∧ (spiAt up false Reg.blkAddr).WritesTo .spi Reg.blkAddr ∧
    (spiAt up false 0x0C).WritesTo .spi 0x0C ∧ (0x0C : BitVec 7) ≠ Reg.blkAddr ∧ ownBehaviour 0x0C = false ∧
    ownBehaviour 0x7F = false ∧ State.reset.loading = true :=
  ⟨⟨rfl, rfl⟩, ⟨rfl, rfl⟩, ⟨rfl, rfl⟩, by decide +kernel, by decide +kernel, by decide +kernel, rfl⟩

theorem test_status_and_register_writes :
    (after (.orderErrClear .spi false) (spiAt { up with notify := { up.notify with orderErr := true } } false
      Reg.status)).notify.orderErr = false ∧
    ((after (.collisionClear .spi false) (spiAt { up with primary := { up.primary with collision := true } } false
      Reg.status)).port .primary).collision = false ∧
    ((after (.registerWrite .spi 0x05 0xFFFF) (spiAt up false 0x05)).port .primary).blkAddr = 127 ∧
    up.regView .primary 0x00 = 0x6140 ∧ State.reset.regView .maint 0x02 = 0x0001 ∧
    levels.regView .primary 0x07 = 0x0052 ∧ levels.regView .maint 0x0A = 0x2041 ∧
    up.regView .primary 0x19 = 96 ∧ up.regView .primary 0x1C = 0 := by decide +kernel

/-! ### The boot loader -/

/-- The bytes of words, high byte first (R176). -/
def bytesOf (ws : List Word) : List Byte := ws.flatMap fun w => [hiByte w, loByte w]

/-- The header of an image with R 2 and P 3 that starts scanning and notifying (section 10.6). -/
def headerWords : List Word := [0x61C4, 1, 2, 3, 3, 10, 0, 0, 500, 0x0212, 0x2041, 0x7653]

/-- A sound image of no records: twelve header words and the word that makes the sum 0. -/
def smallImage : List Word :=
  [0x61C4, 1, 0, 0, 0, 0, 0, 0, 0, 0, 0x3210, 0x7654, 0 - (0x61C4 + 1 + 0x3210 + 0x7654)]

/-- The verify pass from reset, on these bytes. -/
def verified (bs : List Byte) : State := after (.verifyPass (eeprom 0 (.bytes bs))) State.reset

/-- Each case of the verify pass, the counts at their bounds, and every place where it has not ended. -/
theorem witness_VerifyPassJudgesTheImage :
    State.reset.loader.state = .verify ∧
    (bytesOf smallImage).length / 2 = 12 + 6 * 0 + 14 * 0 + 1 ∧ ((wordsOf (bytesOf smallImage)).take 13).sum = 0 ∧
    (verified (bytesOf smallImage)).loader.state = .apply ∧
    (verified (bytesOf (smallImage.set 4 1))).loader.fail = true ∧
    (verified [0xFF, 0xFF]).loader = { Loader.reset with state := .done } ∧
    (verified [0x61, 0xC5]).loader = { Loader.reset with state := .done, fail := true } ∧
    (verified [0x61, 0xC4, 0, 2]).loader.fail = true ∧
    (verified [0x61, 0xC4, 0, 1, 0, 9]).loader.fail = true ∧
    (verified [0x61, 0xC4, 0, 1, 0, 9, 0, 0]).loader.fail = true ∧
    (verified [0x61, 0xC4, 0, 1, 0, 8, 1, 1]).loader.fail = true ∧
    (verified []).loader.state = .verify ∧ (verified [0x61, 0xC4]).loader.state = .verify ∧
    (verified [0x61, 0xC4, 0, 1]).loader.state = .verify ∧ (verified [0x61, 0xC4, 0, 1, 0, 8]).loader.state = .verify ∧
    (verified [0x61, 0xC4, 0, 1, 0, 8, 1, 0]).loader.state = .verify ∧
    (after (.verifyPass (eeprom 0 .failed)) State.reset).loader.fail = true := by decide +kernel

/-- The apply pass of an image with R 2 and P 3, so far along, with this sum. -/
def applying (header : Bool) (regions points : Nat) (sum : Word) : State :=
  { State.reset with loader := { Loader.reset with
      state := .apply, regions := 2, points := 3, headerDone := header, regionsDone := regions, pointsDone := points
      sum := sum, startScanRun := header, startNotifyEn := header } }

/-- The point record of point 64 of section 4.9, and region records of regions 0 and 9. -/
def pointRecord : List Byte := bytesOf (0x0040 :: meterWords)
def regionRecord (n : Word) : List Byte := bytesOf [n, 0x0401, 0, 0, 5, 0]

theorem witness_ApplyPassLoadsTheImage :
    (applying false 0 0 0).loader.state = .apply ∧ (applying false 0 0 0).loader.headerDone = false ∧
    (applying false 0 0 0).startAddress = some 0 ∧ (applying true 1 0 0).startAddress = some (BitVec.ofNat 16 (2 * (12 + 6 * 1))) ∧
    (applying true 2 2 0).startAddress = some (BitVec.ofNat 16 (2 * (12 + 6 * 2 + 14 * 2))) ∧
    (applying true 2 3 0).startAddress = some (BitVec.ofNat 16 (2 * (12 + 6 * 2 + 14 * 3))) ∧
    24 ≤ (bytesOf headerWords).length ∧ 12 ≤ (regionRecord 9).length ∧ 28 ≤ pointRecord.length ∧
    (applying true 1 0 0).loader.regionsDone = 1 ∧ (1 : Nat) < (applying true 1 0 0).loader.regions ∧
    (Region.ofWords fun i => (wordsOf (regionRecord 0)).getD i 0).Valid ∧
    (loByte ((wordsOf (regionRecord 9)).getD 0 0)).toNat = 9 ∧
    (applying true 2 2 0).loader.pointsDone = 2 ∧ (2 : Nat) < (applying true 2 2 0).loader.points ∧
    accepts (inArea (applying true 2 2 0))
      (RawDef.ofWords fun i => (wordsOf pointRecord).getD (i + 1) 0) none 0 = true ∧
    refusedBy (applying true 2 2 0)
      (RawDef.ofWords fun i => (wordsOf pointRecord).getD (i + 1) 0) none 0 = some .noRegion ∧
    (applying true 2 3 0).loader.sum + (wordsOf [0, 0]).sum = 0 ∧
    (applying true 2 3 0).loader.sum + (wordsOf [0, 1]).sum ≠ 0 := by
  unfold Region.Valid
  decide +kernel

theorem witness_ApplyPassLoadingQuiet : (applying true 2 3 0).LoadingQuiet := by
  refine fun _ => ⟨rfl, ?_, ?_, rfl, rfl, ?_, rfl⟩
  · intro r; rcases r with _ | _ | _ <;> rfl
  · intro p; cases p <;> rfl
  · decide +kernel

/-- The next four transactions of the apply pass of an image with R 2 and P 3, each from its place in the image. -/
def headerRead (answer : EepromAnswer) : Instr := .loadHeader (eeprom 0 answer)
def regionRead (k : Nat) (answer : EepromAnswer) : Instr := .loadRegionRecord (eeprom (BitVec.ofNat 16 (24 + 12 * k)) answer)
def pointRead (k : Nat) (answer : EepromAnswer) : Instr := .loadPointRecord (eeprom (BitVec.ofNat 16 (48 + 28 * k)) answer)
def checksumRead (answer : EepromAnswer) : Instr := .loadChecksum (eeprom 132 answer)

theorem test_apply_pass :
    (after (headerRead (.bytes (bytesOf headerWords))) (applying false 0 0 0)).notify
      = { Notify.reset with mask := 0x12, type := 0x02, order := #v[1, 4, 0, 2, 3, 5, 6, 7] } ∧
    ((after (headerRead (.bytes (bytesOf headerWords))) (applying false 0 0 0)).classState 3)
      = ⟨500, 500, false, none, 0, false⟩ ∧
    (after (regionRead 0 (.bytes (regionRecord 0))) (applying true 0 0 0)).region 0 = area4k ∧
    (after (regionRead 1 (.bytes (regionRecord 9))) (applying true 1 0 0)).loader.rejects = 1 ∧
    ((after (pointRead 0 (.bytes pointRecord)) (inArea (applying true 2 0 0))).point 64).state = .unread ∧
    (after (pointRead 0 (.bytes pointRecord)) (applying true 2 0 0)).loader.partialLoad = true ∧
    after (pointRead 1 (.bytes pointRecord)) (applying true 2 0 0) = applying true 2 0 0 := by decide +kernel

theorem test_loadChecksum :
    (after (checksumRead (.bytes [0, 1])) (applying true 2 3 0xFFFF)).scan.run = true ∧
    (after (checksumRead (.bytes [0, 1])) (applying true 2 3 0xFFFF)).loading = false ∧
    (after (checksumRead (.bytes [0, 1])) (inArea (applying true 2 3 0))).loader.fail = true ∧
    (after (checksumRead (.bytes [0, 1])) (inArea (applying true 2 3 0))).region 0 = Region.reset ∧
    (after (checksumRead (.bytes [0, 1])) (inArea (applying true 2 3 0))).lastTaken = .scan ∧
    (after (pointRead 2 .failed) (applying true 2 2 0)).loader.fail = true ∧
    (after (pointRead 2 .failed) (applying true 2 2 0)).scan.run = false := by decide +kernel

end Sys2Proof.Tests
end

/-! ### HOLD and RELEASE (R20) -/

section

namespace Sys2Proof.Machine

namespace State

@[simp] theorem point_with_lastTaken (s : State) (r : Requester) (n : PointNo) :
    { s with lastTaken := r }.point n = s.point n := rfl

/-- Check 1 of R33: a point that is FREE or RETIRING. -/
theorem refusal_eq_notDefined {s : State} {p : Port} {n : PointNo} {holds : Bool}
    (hd : (s.point n).state.isDefined = false) : s.refusal p n holds = some .notDefined := by
  simp [refusal, hd]

/-- Check 3 of R33: a point in use that the other port holds. -/
theorem refusal_eq_held {s : State} {p : Port} {n : PointNo} (hd : (s.point n).state.isDefined = true)
    (hh : (s.point n).holder = some (otherPort p)) : s.refusal p n true = some .held := by
  simp [refusal, heldAgainst, hd, hh]

/-- What HOLD and RELEASE share: the checks of R33, then `h` into HOLDER (`takeHold_eq`, `takeRelease_eq`). -/
def takeHolder (h : Option Port) (p : Port) (c : Command) (s : State) : State :=
  match s.refusal p (operandPoint c) true with
  | some code => s.completeZero p code
  | none =>
    (s.setPoint (operandPoint c) { s.point (operandPoint c) with holder := h }).completeSnapshot p .ok (operandPoint c)

theorem takeHold_eq (p : Port) (c : Command) (s : State) : takeHold p c s = takeHolder (some p) p c s := rfl

theorem takeRelease_eq (p : Port) (c : Command) (s : State) : takeRelease p c s = takeHolder none p c s := rfl

theorem takeHolder_of_refusal_none {h : Option Port} {p : Port} {c : Command} {s : State}
    (hr : s.refusal p (operandPoint c) true = none) :
    takeHolder h p c s =
      (s.setPoint (operandPoint c) { s.point (operandPoint c) with holder := h }).completeSnapshot p .ok
        (operandPoint c) := by
  simp [takeHolder, hr]

theorem takeHolder_of_refusal_some {h : Option Port} {p : Port} {c : Command} {s : State} {code : ResultCode}
    (hr : s.refusal p (operandPoint c) true = some code) : takeHolder h p c s = s.completeZero p code := by
  simp [takeHolder, hr]

/-- The event `i` of port `p` puts `h` into HOLDER of point `n`, or is refused HELD or NOT_DEFINED (R20). -/
def SetsHolder (s : State) (i : Instr) (p : Port) (n : PointNo) (h : Option Port) : Prop :=
  ((s.point n).state.isDefined = true → (s.point n).holder ≠ some (otherPort p) →
    ∃ t, exec i s = .next t ∧ s.Completed t p .ok (t.snapshot n) ∧
      t.point n = { s.point n with holder := h } ∧ (∀ m, m ≠ n → t.point m = s.point m) ∧
      t = { s with points := t.points, lastTaken := t.lastTaken, primary := t.primary, maint := t.maint }) ∧
  ((s.point n).state.isDefined = true → (s.point n).holder = some (otherPort p) → s.RefusedWith i p .held) ∧
  ((s.point n).state.isDefined = false → s.RefusedWith i p .notDefined)

/-- A row that is `takeHolder` does what R20 says. -/
theorem setsHolder_of_exec {s : State} {i : Instr} {p : Port} {c : Command} {h : Option Port}
    (hx : exec i s = .next (takeHolder h p c { s with lastTaken := .slot p })) :
    s.SetsHolder i p (operandPoint c) h := by
  refine ⟨fun hd hh => ?accepted, fun hd hh => ?held, fun hd => ?notDefined⟩
  case accepted =>
    rw [takeHolder_of_refusal_none (s := { s with lastTaken := .slot p }) (refusal_eq_none hd fun _ => hh)] at hx
    refine ⟨_, hx, completed_completeSnapshot s _ p .ok _ (by simp) ?_ ?_, ?_, fun m hm => ?_, ?_⟩
    · cases p <;> rfl
    · cases p <;> rfl
    · simp
    · simp [hm.symm]
    · cases p <;> rfl
  case held =>
    rw [takeHolder_of_refusal_some (s := { s with lastTaken := .slot p }) (refusal_eq_held hd hh)] at hx
    exact refusedWith_of_completeZero hx
  case notDefined =>
    rw [takeHolder_of_refusal_some (s := { s with lastTaken := .slot p }) (refusal_eq_notDefined hd)] at hx
    exact refusedWith_of_completeZero hx

theorem exec_hold (p : Port) (s : State) : exec (.hold p) s = execHold p s := rfl

theorem exec_release (p : Port) (s : State) : exec (.release p) s = execRelease p s := rfl

/-- HOLD, taken by the table engine, puts the issuing port into HOLDER. -/
theorem NextCommand.setsHolder_hold {s : State} {p : Port} {c : Command} (h : s.NextCommand p .hold c) :
    s.SetsHolder (.hold p) p (operandPoint c) (some p) :=
  setsHolder_of_exec (by rw [exec_hold, execHold, onCommand_taken h.taken, takeHold_eq])

/-- RELEASE, taken by the table engine, puts NONE into HOLDER. -/
theorem NextCommand.setsHolder_release {s : State} {p : Port} {c : Command} (h : s.NextCommand p .release c) :
    s.SetsHolder (.release p) p (operandPoint c) none :=
  setsHolder_of_exec (by rw [exec_release, execRelease, onCommand_taken h.taken, takeRelease_eq])

end State

/-- Settles O21: both rows are `takeHolder`, which is what R20 asks of either. -/
theorem holdAndReleaseActOnHolder : Obligations.HoldAndReleaseActOnHolder :=
  fun _ _ _ => ⟨State.NextCommand.setsHolder_hold, State.NextCommand.setsHolder_release⟩

end Sys2Proof.Machine

end

/-! ### Chains as linked lists (R14 to R16) -/

section

namespace Sys2Proof.Machine

/-! #### Lists -/

/-- A member is the first of its list or stands behind another. -/
theorem eq_cons_or_eq_append_of_mem {α : Type} {x : α} {l : List α} (h : x ∈ l) :
    (∃ b, l = x :: b) ∨ ∃ a q b, l = a ++ q :: x :: b := by
  obtain ⟨a, b, rfl⟩ := List.append_of_mem h
  rcases List.eq_nil_or_concat' a with rfl | ⟨a, q, rfl⟩
  · exact .inl ⟨b, rfl⟩
  · exact .inr ⟨a, q, b, by simp⟩

/-- Filtering out a member of a list without repetition closes the gap. -/
theorem filter_ne_of_nodup {α : Type} [DecidableEq α] {x : α} {a b : List α} (h : (a ++ x :: b).Nodup) :
    (a ++ x :: b).filter (· ≠ x) = a ++ b := by
  have hab : ∀ m ∈ a ++ b, m ≠ x := by grind
  calc (a ++ x :: b).filter (· ≠ x) = (a ++ b).filter (· ≠ x) := by simp
    _ = a ++ b := List.filter_eq_self.mpr (by simpa using hab)

end Sys2Proof.Machine

namespace Sys2Proof.Machine.State

variable {s u : State} {c : ClassSel} {n : PointNo} {l : List PointNo}

/-! #### Following NEXT -/

/-- What NEXT leads to is one list: two lists linked from one place are equal. -/
theorem Linked.unique {h : Option PointNo} {l l' : List PointNo} (hl : s.Linked h l) (hl' : s.Linked h l') :
    l = l' := by
  induction l generalizing h l' with
  | nil =>
    cases l' with
    | nil => rfl
    | cons q qs => simp_all [Linked]
  | cons p ps ih =>
    obtain ⟨rfl, hps⟩ := hl
    cases l' with
    | nil => simp [Linked] at hl'
    | cons q qs =>
      obtain ⟨hq, hqs⟩ := hl'
      obtain rfl := Option.some.inj hq
      rw [ih hps hqs]

/-- The NEXT of the members alone decides what is linked. -/
theorem Linked.congr {h : Option PointNo} (hn : ∀ m ∈ l, (u.point m).next = (s.point m).next) (hl : s.Linked h l) :
    u.Linked h l := by
  induction l generalizing h with
  | nil => exact hl
  | cons p ps ih =>
    obtain ⟨hp, hps⟩ := hl
    exact ⟨hp, hn p (by simp) ▸ ih (fun m hm => hn m (by simp [hm])) hps⟩

/-- Behind a member `q` the list may be exchanged for any that the new NEXT of `q` leads to. -/
theorem Linked.splice {h : Option PointNo} {a b b' : List PointNo} {q : PointNo} (hl : s.Linked h (a ++ q :: b))
    (ha : ∀ m ∈ a, (u.point m).next = (s.point m).next) (hb : u.Linked (u.point q).next b') :
    u.Linked h (a ++ q :: b') := by
  induction a generalizing h with
  | nil => exact ⟨hl.1, hb⟩
  | cons p ps ih =>
    obtain ⟨hp, hps⟩ := hl
    exact ⟨hp, ha p (by simp) ▸ ih hps fun m hm => ha m (by simp [hm])⟩

/-- The NEXT of a member leads to the members behind it. -/
theorem Linked.behind {h : Option PointNo} {a b : List PointNo} {q : PointNo} (hl : s.Linked h (a ++ q :: b)) :
    s.Linked (s.point q).next b := by
  induction a generalizing h with
  | nil => exact hl.2
  | cons p ps ih => exact ih hl.2

theorem Linked.eq_head? {h : Option PointNo} (hl : s.Linked h l) : h = l.head? := by
  cases l with
  | nil => exact hl
  | cons p ps => exact hl.1

/-- The search of R16 finds the member before `n`. -/
theorem Linked.predecessor_eq {h : Option PointNo} {a b : List PointNo} {q : PointNo} {fuel : Nat}
    (hl : s.Linked h (a ++ q :: n :: b)) (hnd : (a ++ q :: n :: b).Nodup) (hf : a.length < fuel) :
    s.predecessor n fuel h = some q := by
  induction a generalizing h fuel with
  | nil =>
    obtain ⟨rfl, hq, -⟩ := hl
    obtain ⟨k, rfl⟩ := Nat.exists_eq_succ_of_ne_zero (Nat.ne_of_gt hf)
    simp [predecessor, hq]
  | cons p ps ih =>
    obtain ⟨rfl, hps⟩ := hl
    obtain ⟨k, rfl⟩ := Nat.exists_eq_succ_of_ne_zero (Nat.ne_zero_of_lt hf)
    have hne : (s.point p).next ≠ some n := by
      rw [hps.eq_head?]
      cases ps <;> simp_all
    simp only [predecessor, hne, if_false]
    exact ih hps (List.nodup_cons.mp hnd).2 (by simpa using hf)

/-! #### The members of a chain -/

theorem ChainIs.unique {l l' : List PointNo} (h : s.ChainIs c l) (h' : s.ChainIs c l') : l = l' := h.1.unique h'.1

/-- A chain's own record and the NEXT of its members alone decide what it holds. -/
theorem ChainIs.congr (hc : u.chain c = s.chain c) (hn : ∀ m ∈ l, (u.point m).next = (s.point m).next)
    (h : s.ChainIs c l) : u.ChainIs c l := by
  obtain ⟨hl, hnd, ht, hlen⟩ := h
  exact ⟨hc ▸ hl.congr hn, hnd, hc ▸ ht, hc ▸ hlen⟩

/-- Where chains and records agree, the members are the points in use of the CLASS (R14). -/
theorem ChainsAgree.mem_iff (ha : s.ChainsAgree) (h : s.ChainIs c l) :
    n ∈ l ↔ (s.point n).state.isDefined = true ∧ (s.point n).cls = c := by
  obtain ⟨l', hl', hmem⟩ := ha c
  rw [h.unique hl']
  exact hmem n

/-- Members of different chains differ in CLASS, so no point is on two. -/
theorem ChainsAgree.notMem_of_ne {x : ClassSel} {l' : List PointNo} (ha : s.ChainsAgree) (h : s.ChainIs c l)
    (h' : s.ChainIs x l') (hx : x ≠ c) (hn : n ∈ l') : n ∉ l := fun hl => by
  obtain ⟨-, hc⟩ := (ha.mem_iff h).mp hl
  obtain ⟨-, hc'⟩ := (ha.mem_iff h').mp hn
  exact hx (hc' ▸ hc)

theorem ChainIs.mem_of_tail {t : PointNo} (h : s.ChainIs c l) (ht : (s.chain c).tail = some t) : t ∈ l := by
  obtain ⟨-, -, hlast, -⟩ := h
  exact List.mem_of_getLast? (hlast ▸ ht)

/-- No chain has more members than there are points. -/
theorem ChainIs.length_le (h : s.ChainIs c l) : l.length ≤ 256 := by
  obtain ⟨-, hnd, -, -⟩ := h
  simpa using hnd.length_le_card

/-- From `s` to `u` no record has changed but in NEXT. -/
def OnlyNextMoves (s u : State) : Prop := ∀ m, u.point m = { s.point m with next := (u.point m).next }

theorem OnlyNextMoves.trans {t : State} (h : s.OnlyNextMoves t) (h' : t.OnlyNextMoves u) :
    s.OnlyNextMoves u := fun m => by rw [h' m, h m]

theorem OnlyNextMoves.of_points_eq (h : ∀ m, u.point m = s.point m) : s.OnlyNextMoves u := fun m => by rw [h m]

theorem onlyNextMoves_setNext (p : PointNo) (k : Option PointNo) : s.OnlyNextMoves (s.setNext p k) := fun m => by
  rw [point_setNext]
  split <;> rfl

theorem OnlyNextMoves.othersKept (h : s.OnlyNextMoves u) (n : PointNo) : s.OthersKept u n := fun m _ => h m

@[simp] theorem next_setNext (p m : PointNo) (k : Option PointNo) :
    ((s.setNext p k).point m).next = if p = m then k else (s.point m).next := by
  rw [point_setNext]
  split <;> rfl

/-! #### Appending (R15) -/

theorem appendTo_of_tail_none (h : (s.chain c).tail = none) :
    s.appendTo c n = (s.setNext n none).setChain c ⟨some n, some n, (s.chain c).length + 1⟩ := by
  simp [appendTo, h]

theorem appendTo_of_tail_some {t : PointNo} (h : (s.chain c).tail = some t) :
    s.appendTo c n = ((s.setNext n none).setNext t (some n)).setChain c
      { s.chain c with tail := some n, length := (s.chain c).length + 1 } := by
  simp [appendTo, h]

theorem onlyNextMoves_appendTo (s : State) (c : ClassSel) (n : PointNo) : s.OnlyNextMoves (s.appendTo c n) := by
  rcases ht : (s.chain c).tail with _ | t
  · rw [appendTo_of_tail_none ht]
    exact (onlyNextMoves_setNext n none).trans (.of_points_eq (by simp))
  · rw [appendTo_of_tail_some ht]
    exact ((onlyNextMoves_setNext n none).trans (onlyNextMoves_setNext t (some n))).trans (.of_points_eq (by simp))

/-- The NEXT of the old tail becomes the new member, whose own becomes END. -/
theorem next_appendTo (m : PointNo) :
    ((s.appendTo c n).point m).next =
      if (s.chain c).tail = some m then some n else if n = m then none else (s.point m).next := by
  rcases ht : (s.chain c).tail with _ | t
  · simp [appendTo_of_tail_none ht]
  · simp [appendTo_of_tail_some ht]

theorem chain_appendTo_ne {x : ClassSel} (h : x ≠ c) : (s.appendTo c n).chain x = s.chain x := by
  rcases ht : (s.chain c).tail with _ | t
  · simp [appendTo_of_tail_none ht, h.symm]
  · simp [appendTo_of_tail_some ht, h.symm]

/-- A point that is not on the chain becomes its new tail (R15). -/
theorem ChainIs.appendTo_self (h : s.ChainIs c l) (hn : n ∉ l) : (s.appendTo c n).ChainIs c (l ++ [n]) := by
  obtain ⟨hl, hnd, ht, hlen⟩ := h
  have hnd' : (l ++ [n]).Nodup := by simpa [List.nodup_append, hnd] using fun m hm => ne_of_mem_of_not_mem hm hn
  rcases List.eq_nil_or_concat' l with rfl | ⟨a, t, rfl⟩
  · have ht : (s.chain c).tail = none := ht
    refine ⟨?_, hnd', ?_, ?_⟩ <;> simp [appendTo_of_tail_none ht, Linked, hlen]
  · simp only [List.append_assoc, List.cons_append, List.nil_append] at *
    have ht : (s.chain c).tail = some t := by simpa using ht
    refine ⟨?_, hnd', ?_, ?_⟩
    · have hhead : ((s.appendTo c n).chain c).head = (s.chain c).head := by simp [appendTo_of_tail_some ht]
      have hend : (s.appendTo c n).Linked ((s.appendTo c n).point t).next [n] := by
        have htn : t ≠ n := by grind
        simp [Linked, next_appendTo, ht, htn]
      rw [hhead]
      refine hl.splice (fun m hm => ?_) hend
      have hm' : t ≠ m ∧ n ≠ m := by grind
      simp [next_appendTo, ht, hm']
    · simp [appendTo_of_tail_some ht]
    · simp [appendTo_of_tail_some ht, hlen]

/-! #### Unlinking (R16, R64) -/

/-- The first member leaves: HEAD becomes its NEXT, and TAIL with it where it was the sole member. -/
theorem ChainIs.closeGap_first {b : List PointNo} (h : s.ChainIs c (n :: b)) :
    s.closeGap c n (s.point n).next = s.setChain c ⟨(s.point n).next, b.getLast?, b.length⟩ := by
  obtain ⟨⟨hh, hb⟩, hnd, ht, hlen⟩ := h
  rcases List.eq_nil_or_concat' b with rfl | ⟨b, t, rfl⟩
  · have hsucc : (s.point n).next = none := hb
    have ht : (s.chain c).tail = some n := ht
    simp [closeGap, hh, ht, hsucc, hlen]
  · have ht : (s.chain c).tail = some t := ht.trans (List.getLast?_concat (l := n :: b))
    have htn : t ≠ n := by grind
    simp [closeGap, hh, ht, htn, hlen]

/-- A later member leaves: its predecessor takes over its NEXT, and TAIL where it was the last. -/
theorem ChainIs.closeGap_behind {a b : List PointNo} {q : PointNo} (h : s.ChainIs c (a ++ q :: n :: b)) :
    s.closeGap c n (s.point n).next = (s.setNext q (s.point n).next).setChain c
      ⟨(s.chain c).head, (a ++ q :: b).getLast?, (a ++ q :: b).length⟩ := by
  have hfuel : a.length < 256 := by
    have hlen := h.length_le
    simp only [List.length_append, List.length_cons] at hlen
    omega
  obtain ⟨hl, hnd, ht, hlen⟩ := h
  have hpred : s.predecessor n 256 (s.chain c).head = some q := hl.predecessor_eq hnd hfuel
  have hh : (s.chain c).head ≠ some n := by
    rw [hl.eq_head?]
    cases a <;> grind
  have htail : (if (s.chain c).tail = some n then some q else (s.chain c).tail) = (a ++ q :: b).getLast? := by
    rcases List.eq_nil_or_concat' b with rfl | ⟨b, t, rfl⟩
    · simp [ht]
    · have htn : t ≠ n := by grind
      have ht : (s.chain c).tail = some t := by grind
      have hlast : (a ++ q :: (b ++ [t])).getLast? = some t := by grind
      simp only [ht, hlast, Option.some.injEq, htn, if_false]
  simp [closeGap, hh, hpred, htail, hlen]

theorem chain_unlinkFrom (x : ClassSel) :
    (s.unlinkFrom c n).chain x = (s.closeGap c n (s.point n).next).chain x := by
  simp [unlinkFrom]

theorem next_unlinkFrom (m : PointNo) : ((s.unlinkFrom c n).point m).next =
    if n = m then none else ((s.closeGap c n (s.point n).next).point m).next := by
  simp [unlinkFrom]

theorem onlyNextMoves_closeGap (s : State) (c : ClassSel) (n : PointNo) (k : Option PointNo) :
    s.OnlyNextMoves (s.closeGap c n k) := by
  unfold closeGap
  dsimp only
  rcases s.predecessor n 256 (s.chain c).head with _ | q
  · exact .of_points_eq (by split_ifs <;> simp)
  · split_ifs
    · exact .of_points_eq (by simp)
    · exact .of_points_eq (by simp)
    all_goals exact (onlyNextMoves_setNext q k).trans (.of_points_eq (by simp))

theorem onlyNextMoves_unlinkFrom (s : State) (c : ClassSel) (n : PointNo) : s.OnlyNextMoves (s.unlinkFrom c n) :=
  ((onlyNextMoves_closeGap s c n (s.point n).next).trans (onlyNextMoves_setNext n none)).trans
    (.of_points_eq (by simp [unlinkFrom]))

theorem chain_unlinkFrom_ne {x : ClassSel} (h : x ≠ c) : (s.unlinkFrom c n).chain x = s.chain x := by
  rw [chain_unlinkFrom]
  unfold closeGap
  dsimp only
  cases s.predecessor n 256 (s.chain c).head <;> split_ifs <;> simp [h.symm]

/-- A pass whose cursor is the leaving point moves it to the successor, or ends (R64). -/
theorem classState_cursorUnlink (k : ClassNo) (succ : Option PointNo) : (s.cursorUnlink c n succ).classState k =
    if c = some k ∧ (s.classState k).inPass = true ∧ (s.classState k).cursor = some n then
      { s.classState k with inPass := succ.isSome, cursor := succ }
    else s.classState k := by
  unfold cursorUnlink
  rcases c with _ | j
  · simp
  · by_cases hj : j = k
    · subst hj
      dsimp only
      split_ifs <;> simp_all
    · dsimp only
      split_ifs <;> simp_all

theorem classState_unlinkFrom (k : ClassNo) : (s.unlinkFrom c n).classState k =
    if c = some k ∧ (s.classState k).inPass = true ∧ (s.classState k).cursor = some n then
      { s.classState k with inPass := (s.point n).next.isSome, cursor := (s.point n).next }
    else s.classState k := by
  simp [unlinkFrom, classState_cursorUnlink]

/-- A point of no concern to the chain keeps its NEXT. -/
theorem ChainIs.next_unlinkFrom_of_notMem {m : PointNo} (h : s.ChainIs c l) (hn : n ∈ l) (hm : m ∉ l) :
    ((s.unlinkFrom c n).point m).next = (s.point m).next := by
  have hnm : n ≠ m := ne_of_mem_of_not_mem hn hm
  rcases eq_cons_or_eq_append_of_mem hn with ⟨b, rfl⟩ | ⟨a, q, b, rfl⟩
  · simp [next_unlinkFrom, h.closeGap_first, hnm]
  · have hqm : q ≠ m := by grind
    simp [next_unlinkFrom, h.closeGap_behind, hnm, hqm]

theorem ChainIs.unlinkFrom_first {b : List PointNo} (h : s.ChainIs c (n :: b)) : (s.unlinkFrom c n).ChainIs c b := by
  have ⟨⟨_, hb⟩, hnd, _, _⟩ := h
  have hnb : ∀ m ∈ b, n ≠ m := by grind
  have hc : (s.unlinkFrom c n).chain c = ⟨(s.point n).next, b.getLast?, b.length⟩ := by
    rw [chain_unlinkFrom, h.closeGap_first, chain_setChain_self]
  have hlinked : (s.unlinkFrom c n).Linked (s.point n).next b := hb.congr fun m hm => by
    simp [next_unlinkFrom, h.closeGap_first, hnb m hm]
  exact ⟨by rwa [hc], (List.nodup_cons.mp hnd).2, by rw [hc], by rw [hc]⟩

theorem ChainIs.unlinkFrom_behind {a b : List PointNo} {q : PointNo} (h : s.ChainIs c (a ++ q :: n :: b)) :
    (s.unlinkFrom c n).ChainIs c (a ++ q :: b) := by
  have ⟨hl, hnd, _, _⟩ := h
  have hnm : ∀ m ∈ a ++ b, n ≠ m ∧ q ≠ m := by grind
  have hnq : n ≠ q := by grind
  have hc : (s.unlinkFrom c n).chain c = ⟨(s.chain c).head, (a ++ q :: b).getLast?, (a ++ q :: b).length⟩ := by
    rw [chain_unlinkFrom, h.closeGap_behind, chain_setChain_self]
  have hq : ((s.unlinkFrom c n).point q).next = (s.point n).next := by
    simp [next_unlinkFrom, h.closeGap_behind, hnq]
  have hsame : ∀ m ∈ a ++ b, ((s.unlinkFrom c n).point m).next = (s.point m).next := fun m hm => by
    simp [next_unlinkFrom, h.closeGap_behind, hnm m hm]
  have hb : s.Linked (s.point n).next b := Linked.behind (a := a ++ [q]) (by simpa using hl)
  have hb' : (s.unlinkFrom c n).Linked ((s.unlinkFrom c n).point q).next b :=
    hq ▸ hb.congr fun m hm => hsame m (by simp [hm])
  have hlinked : (s.unlinkFrom c n).Linked (s.chain c).head (a ++ q :: b) :=
    hl.splice (fun m hm => hsame m (by simp [hm])) hb'
  exact ⟨by rwa [hc], by grind, by rw [hc], by rw [hc]⟩

/-- A member leaves its chain, the others keeping their order (R16). -/
theorem ChainIs.unlinkFrom_self (h : s.ChainIs c l) (hn : n ∈ l) :
    (s.unlinkFrom c n).ChainIs c (l.filter (· ≠ n)) := by
  have ⟨_, hnd, _, _⟩ := h
  rcases eq_cons_or_eq_append_of_mem hn with ⟨b, rfl⟩ | ⟨a, q, b, rfl⟩
  · have hf : (n :: b).filter (· ≠ n) = b := filter_ne_of_nodup (a := []) hnd
    rw [hf]
    exact h.unlinkFrom_first
  · have hf : (a ++ q :: n :: b).filter (· ≠ n) = a ++ q :: b := by
      simpa using filter_ne_of_nodup (a := a ++ [q]) (b := b) (by simpa using hnd)
    rw [hf]
    exact h.unlinkFrom_behind

/-! #### Where chains and records agree -/

/-- Appending a point out of use touches its own chain alone, the members of the others having another CLASS (R15). -/
theorem ChainsAgree.appendTo_effect (ha : s.ChainsAgree) (hd : (s.point n).state.isDefined = false)
    (h : s.ChainIs c l) :
    (s.appendTo c n).ChainIs c (l ++ [n]) ∧
    (∀ x m, x ≠ c → s.ChainIs x m → (s.appendTo c n).ChainIs x m) ∧
    s.OthersKept (s.appendTo c n) n ∧ (s.appendTo c n).point n = { s.point n with next := none } ∧
    (s.appendTo c n).scan = s.scan := by
  have hfree : ∀ x m, s.ChainIs x m → n ∉ m := fun x m hm hn => by simp [(ha.mem_iff hm).mp hn] at hd
  have hnext : ((s.appendTo c n).point n).next = none := by
    rw [next_appendTo, if_neg fun ht => hfree c l h (h.mem_of_tail ht), if_pos rfl]
  refine ⟨h.appendTo_self (hfree c l h), fun x m hx hm => ?_, (onlyNextMoves_appendTo s c n).othersKept n,
    hnext ▸ onlyNextMoves_appendTo s c n n, by simp⟩
  refine hm.congr (chain_appendTo_ne hx) fun k hk => ?_
  have hnk : n ≠ k := fun e => hfree x m hm (e ▸ hk)
  have htk : (s.chain c).tail ≠ some k := fun ht => ha.notMem_of_ne h hm hx hk (h.mem_of_tail ht)
  simp [next_appendTo, hnk, htk]

/-- Unlinking a point in use touches the chain of its CLASS alone (R16, R64). -/
theorem ChainsAgree.unlinkFrom_effect (ha : s.ChainsAgree) (hd : (s.point n).state.isDefined = true) :
    s.LeavesChain (s.unlinkFrom (s.point n).cls n) n ∧
    (∀ x l, x ≠ (s.point n).cls → s.ChainIs x l → (s.unlinkFrom (s.point n).cls n).ChainIs x l) ∧
    s.OthersKept (s.unlinkFrom (s.point n).cls n) n ∧
    (s.unlinkFrom (s.point n).cls n).point n = { s.point n with next := none } := by
  have hmoves := onlyNextMoves_unlinkFrom s (s.point n).cls n
  have hmem : ∀ l, s.ChainIs (s.point n).cls l → n ∈ l := fun l hl => (ha.mem_iff hl).mpr ⟨hd, rfl⟩
  have hnext : ((s.unlinkFrom (s.point n).cls n).point n).next = none := by simp [next_unlinkFrom]
  refine ⟨⟨fun l hl => hl.unlinkFrom_self (hmem l hl), classState_unlinkFrom⟩, fun x l hx hl => ?_,
    hmoves.othersKept n, hnext ▸ hmoves n⟩
  obtain ⟨l₀, hl₀, -⟩ := ha (s.point n).cls
  exact hl.congr (chain_unlinkFrom_ne hx) fun m hm =>
    hl₀.next_unlinkFrom_of_notMem (hmem l₀ hl₀) (ha.notMem_of_ne hl₀ hl hx hm)

end Sys2Proof.Machine.State

namespace Sys2Proof.Machine

/-- Settles O31, by what each of the two operations does where chains and records agree. -/
theorem chainsAppendAndUnlink : Obligations.ChainsAppendAndUnlink :=
  ⟨fun _ _ _ _ ha hd h => ha.appendTo_effect hd h, fun _ _ ha hd => ha.unlinkFrom_effect hd⟩

end Sys2Proof.Machine

end

/-! ### READ (R40) -/

section

namespace Sys2Proof.Machine

namespace State

/-- A command that only completes with a snapshot shows the point as it was, and touches nothing else (R31, R41). -/
theorem completed_snapshotOnly (s : State) (p : Port) (code : ResultCode) (n : PointNo) :
    s.Completed ({ s with lastTaken := .slot p }.completeSnapshot p code n) p code (s.snapshot n) ∧
    s.SlotsOnly ({ s with lastTaken := .slot p }.completeSnapshot p code n) := by
  have hshown : ({ s with lastTaken := .slot p }.completeSnapshot p code n).snapshot n = s.snapshot n :=
    snapshot_congr (by simp) (by simp) n
  have hdone := completed_completeSnapshot s { s with lastTaken := .slot p } p code n rfl (by cases p <;> rfl)
    (by cases p <;> rfl)
  exact ⟨hshown ▸ hdone, by cases p <;> rfl⟩

theorem exec_read (p : Port) (s : State) : exec (.read p) s = execRead p s := rfl

theorem takeRead_eq (p : Port) (c : Command) (s : State) :
    takeRead p c s = s.completeSnapshot p .ok (operandPoint c) := rfl

/-- READ, taken by the table engine, completes OK with a snapshot, whatever the point's state. -/
theorem NextCommand.exec_read {s : State} {p : Port} {c : Command} (h : s.NextCommand p .read c) :
    exec (.read p) s = .next ({ s with lastTaken := .slot p }.completeSnapshot p .ok (operandPoint c)) := by
  rw [State.exec_read, execRead, onCommand_taken h.taken, takeRead_eq]

end State

/-- Settles O23: READ has no check, so its row is the completion with a snapshot alone. -/
theorem readTouchesNothing : Obligations.ReadTouchesNothing := fun p c s h =>
  ⟨_, h.exec_read, s.completed_snapshotOnly p .ok (State.operandPoint c)⟩

end Sys2Proof.Machine

end

/-! ### DISMISS (R29, R30) -/

section

namespace Sys2Proof.Machine

namespace State

variable {s : State} {p : Port} {w : Word}

/-- A BUSY slot refuses every CMD write with COLLISION (R29). -/
theorem writeCmd_of_busy {c : Command} (h : (s.slot p).state = .busy c) :
    writeCmd p w s = s.setPort p { s.port p with collision := true } := by
  simp [writeCmd, h]

theorem writeCmd_dismiss_of_done (hw : hiByte w = dismissCode) (h : (s.slot p).state = .done) :
    writeCmd p w s = s.setPort p { s.port p with slot := { s.slot p with state := .idle } } := by
  simp [writeCmd, h, hw, setSlot]

theorem writeCmd_dismiss_of_idle (hw : hiByte w = dismissCode) (h : (s.slot p).state = .idle) :
    writeCmd p w s = s := by
  have hslot : { s.slot p with state := .idle } = s.slot p := by rw [← h]
  simp only [writeCmd, h, hw, if_true, hslot]
  cases p <;> rfl

theorem portOnly_refl (s : State) (p : Port) : s.PortOnly s p := ⟨rfl, rfl⟩

theorem portOnly_setPort (s : State) (p : Port) (x : PortState) : s.PortOnly (s.setPort p x) p := by
  cases p <;> exact ⟨rfl, rfl⟩

/-- DISMISS is the CMD write of its code 0x0F (R30, R172). -/
theorem exec_cmdWrite_dismissCode (v : Via) (operand : Byte) (s : State) :
    exec (.cmdWrite v (wordOf 0x0F operand)) s = exec (.dismiss v operand) s := rfl

theorem WritesTo.exec_dismiss {v : Via} (h : s.WritesTo v Reg.cmd) (operand : Byte) :
    exec (.dismiss v operand) s = .next (writeCmd v.port (wordOf dismissCode operand) s) := by
  obtain ⟨htaken, hloading⟩ := h
  exact congrArg Host.Outcome.next (s.portWrite_taken v Reg.cmd _ htaken hloading)

end State

/-- Settles O30, slot state by slot state. -/
theorem dismissReturnsASlotToIdle : Obligations.DismissReturnsASlotToIdle := by
  intro v operand s h
  have hcode : hiByte (wordOf dismissCode operand) = dismissCode := hiByte_wordOf _ _
  refine ⟨_, h.exec_dismiss operand, (State.exec_cmdWrite_dismissCode v operand s).trans (h.exec_dismiss operand), ?_⟩
  cases hs : (s.slot v.port).state with
  | idle =>
    rw [State.writeCmd_dismiss_of_idle hcode hs]
    exact ⟨rfl, s.portOnly_refl v.port⟩
  | done =>
    rw [State.writeCmd_dismiss_of_done hcode hs]
    exact ⟨s.port_setPort_self _ _, s.portOnly_setPort _ _⟩
  | busy c =>
    rw [State.writeCmd_of_busy hs]
    exact ⟨s.port_setPort_self _ _, s.portOnly_setPort _ _⟩

end Sys2Proof.Machine

end

/-! ### What a counted completion does (R25, R83) -/

section

namespace Sys2Proof.Machine

/-! #### The record -/

/-- The steps of R83 on a record leave CAUSES, CAUSE_EN and LEVEL to the taking in of what they raise. -/
theorem judge_keeps (r : Point) (before : List Word) (c : Completion) :
    (judge r before c).point.causes = r.causes ∧ (judge r before c).point.causeEn = r.causeEn ∧
    (judge r before c).point.level = r.level := by
  have hvalue : (judgeValue r before c).point.causes = r.causes ∧ (judgeValue r before c).point.causeEn = r.causeEn ∧
      (judgeValue r before c).point.level = r.level := by
    unfold judgeValue
    split <;> split <;> exact ⟨rfl, rfl, rfl⟩
  have hfailed : (failedHealth r).point.causes = r.causes ∧ (failedHealth r).point.causeEn = r.causeEn ∧
      (failedHealth r).point.level = r.level := by
    unfold failedHealth
    split_ifs <;> exact ⟨rfl, rfl, rfl⟩
  unfold judge
  cases c.outcome with
  | ok => exact hvalue
  | noRegion | isProtected | timeout => exact hfailed

namespace State

variable {s w : State} {g : Grant} {c : Completion} {n : PointNo} {p : Port} {owed shared : Bool} {o : Outcome}

/-! #### The causes raised (R6, R97, R149) -/

theorem noticesAgree_setPoint {r : Point} (h : s.NoticesAgree) (hc : r.causes = (s.point n).causes)
    (hl : r.level = (s.point n).level) : (s.setPoint n r).NoticesAgree := by
  obtain ⟨hasc, hmem⟩ := h
  refine ⟨by simpa using hasc, fun m v => ?_⟩
  by_cases hm : n = m
  · subst hm
    simpa [hc, hl] using hmem n v
  · simpa [hm] using hmem m v

/-- Taking causes in raises them, where sets and causes agreed (R6, R148, R149). -/
theorem NoticesAgree.raised_addCauses (h : s.NoticesAgree) (n : PointNo) (b : Byte) :
    s.Raised (s.addCauses n b) n b := by
  obtain ⟨hasc, hmem⟩ := h
  refine ⟨by simp [addCauses, point_setCauses], pairwise_noticeSet_setCauses s n _ hasc, fun m v => ?_⟩
  rw [addCauses, mem_noticeSet_setCauses s n _ hmem]
  by_cases hm : m = n
  · subst hm
    simp [point_setCauses]
  · simp [point_setCauses, hm, Ne.symm hm, hmem]

/-- `Raised` looks at CAUSES, CAUSE_EN and LEVEL of the point and at the notice sets of the state before. -/
theorem Raised.congr {u t : State} {b : Byte} (h : u.Raised t n b) (hc : (u.point n).causes = (s.point n).causes)
    (he : (u.point n).causeEn = (s.point n).causeEn) (hl : (u.point n).level = (s.point n).level)
    (hs : ∀ v, u.noticeSet v = s.noticeSet v) : s.Raised t n b := by
  obtain ⟨hcauses, hasc, hmem⟩ := h
  refine ⟨by rw [hcauses, hc, he], hasc, fun m v => ?_⟩
  rw [hmem, hl, hs]

/-- A change of CAUSES touches records and notice sets only. -/
theorem setCauses_frame (s : State) (n : PointNo) (b : Byte) :
    s.setCauses n b = { s with
      points := (s.setCauses n b).points
      notify := { s.notify with sets := (s.setCauses n b).notify.sets } } := by
  unfold setCauses
  dsimp only
  split_ifs <;> rfl

/-- What R83 does before it turns to the commands: the block words of a good block read, the record as it was judged,
and the causes raised. -/
def afterJudging (s : State) (n : PointNo) (c : Completion) : State :=
  let j := judge (s.point n) (s.blockWords (s.point n)) c
  ((s.commitCompletion (s.point n) c).setPoint n { j.point with inFlight := .none, writeAgain := false }).addCauses n
    j.raised

theorem countCompletion_eq (s : State) (g : Grant) (c : Completion) :
    s.countCompletion g c =
      afterCounted g c.outcome (s.point g.point).writeAgain ((s.afterJudging g.point c).isSharedWrite g)
        (afterCounted g c.outcome (s.point g.point).writeAgain ((s.afterJudging g.point c).isSharedWrite g)
          (s.afterJudging g.point c) .primary) .maint := rfl

/-- A commit changes segment words only (R116). -/
theorem commitCompletion_eq (s : State) (r : Point) (c : Completion) :
    ∃ ws, s.commitCompletion r c = { s with segWords := ws } := by
  unfold commitCompletion
  split
  · exact commitBlock_eq s r _
  · exact ⟨s.segWords, rfl⟩

theorem commitCompletion_of_ne {r : Point} (h : c.kind ≠ .blockRead) : s.commitCompletion r c = s := by
  unfold commitCompletion
  split
  · contradiction
  · rfl

theorem segWords_afterJudging (s : State) (n : PointNo) (c : Completion) :
    (s.afterJudging n c).segWords = (s.commitCompletion (s.point n) c).segWords := by
  simp [afterJudging]

theorem point_afterJudging_self (s : State) (n : PointNo) (c : Completion) :
    (s.afterJudging n c).point n = { (judge (s.point n) (s.blockWords (s.point n)) c).point with
      inFlight := .none, writeAgain := false, causes := ((s.afterJudging n c).point n).causes } := by
  simp [afterJudging, addCauses, point_setCauses]

theorem point_afterJudging_ne {m : PointNo} (h : m ≠ n) : (s.afterJudging n c).point m = s.point m := by
  obtain ⟨ws, hws⟩ := s.commitCompletion_eq (s.point n) c
  simp only [afterJudging, addCauses, point_setCauses, point_setPoint, h.symm, if_false, hws]
  rfl

theorem NoticesAgree.raised_afterJudging (h : s.NoticesAgree) (n : PointNo) (c : Completion) :
    s.Raised (s.afterJudging n c) n (judge (s.point n) (s.blockWords (s.point n)) c).raised := by
  obtain ⟨hcauses, hen, hlevel⟩ := judge_keeps (s.point n) (s.blockWords (s.point n)) c
  obtain ⟨ws, hws⟩ := s.commitCompletion_eq (s.point n) c
  have hjudged := noticesAgree_setPoint (s := s.commitCompletion (s.point n) c) (n := n)
    (r := { (judge (s.point n) (s.blockWords (s.point n)) c).point with inFlight := .none, writeAgain := false })
    (hws ▸ h) (hws ▸ hcauses) (hws ▸ hlevel)
  exact (hjudged.raised_addCauses n _).congr (by simpa using hcauses) (by simpa using hen) (by simpa using hlevel)
    fun v => by rw [hws]; rfl

theorem afterJudging_frame (s : State) (n : PointNo) (c : Completion) :
    s.afterJudging n c = { s with
      points := (s.afterJudging n c).points
      segWords := (s.afterJudging n c).segWords
      notify := { s.notify with sets := (s.afterJudging n c).notify.sets } } := by
  obtain ⟨ws, hws⟩ := s.commitCompletion_eq (s.point n) c
  unfold afterJudging addCauses
  rw [hws, setCauses_frame]
  rfl

/-! #### The commands that wait (R42, R46) -/

/-- The request a counted completion of point `n` leads the slot of `p` to; `owed` is WRITE_AGAIN as it found it. -/
def countedAsk (s : State) (n : PointNo) (owed : Bool) (p : Port) : Option Request :=
  if s.waits p .readNow .waitPoint n then some ⟨n, false⟩
  else if s.waits p .write .waitPoint n && owed then some ⟨n, true⟩
  else none

/-- A command has one name and is in one phase. -/
theorem WaitsIn.unique {name name' : CmdName} {ph ph' : CmdPhase} {n' : PointNo} (h : s.WaitsIn p name ph n)
    (h' : s.WaitsIn p name' ph' n') : name = name' ∧ ph = ph' := by
  obtain ⟨d, hd, rfl, rfl, -⟩ := h
  obtain ⟨d', hd', rfl, rfl, -⟩ := h'
  obtain rfl : d = d' := Option.some.inj (hd.symm.trans hd')
  exact ⟨rfl, rfl⟩

/-- `countedAsk` is `CountedAsks` as a function. -/
theorem countedAsk_eq_some_iff {q : Request} :
    s.countedAsk n (s.point n).writeAgain p = some q ↔ s.CountedAsks n p q := by
  simp only [countedAsk, CountedAsks, ← waits_iff]
  cases hread : s.waits p .readNow .waitPoint n with
  | true =>
    have hwrite : s.waits p .write .waitPoint n = false := by
      rw [Bool.eq_false_iff, ne_eq, waits_iff]
      exact fun h => by simpa using (((s.waits_iff ..).mp hread).unique h).1
    simp [hwrite, eq_comm (a := q)]
  | false => cases s.waits p .write .waitPoint n <;> cases (s.point n).writeAgain <;> simp [eq_comm (a := q)]

theorem countedAsk_congr (h : w.port p = s.port p) : w.countedAsk n owed p = s.countedAsk n owed p := by
  have hwaits : ∀ name ph, w.waits p name ph n = s.waits p name ph n := fun name ph => by
    rw [Bool.eq_iff_iff, waits_iff, waits_iff, waitsIn_congr h]
  simp [countedAsk, hwaits]

/-- A command past WAIT_POINT asks for no access. -/
theorem countedAsk_eq_none {name : CmdName} {ph : CmdPhase} (h : s.WaitsIn p name ph n) (hp : ph ≠ .waitPoint) :
    s.countedAsk n owed p = none := by
  have hno : ∀ name', s.waits p name' .waitPoint n = false := fun name' => by
    rw [Bool.eq_false_iff, ne_eq, waits_iff]
    exact fun h' => hp (h.unique h').2
  simp [countedAsk, hno]

theorem setEntry_entry_self (s : State) (r : Requester) : s.setEntry r (s.entry r) = s := by
  rcases r with _ | (_ | _) <;> rfl

theorem setPort_port_self (s : State) (p : Port) : s.setPort p (s.port p) = s := by cases p <;> rfl

theorem enterPhase_eq (s : State) (p : Port) (ph : CmdPhase) : ∃ x, s.enterPhase p ph = s.setPort p x := by
  unfold enterPhase
  split
  · exact ⟨_, rfl⟩
  · exact ⟨_, (s.setPort_port_self p).symm⟩

/-- The command whose own access it was, or that shares its write, is in WAIT_ACCESS or WAIT_WRITE (R43, R47). -/
theorem waitsIn_of_completes
    (h : (s.ownAccess g p .readNow || s.ownAccess g p .write || (shared && s.waits p .write .waitWrite g.point)) = true) :
    ∃ name ph, s.WaitsIn p name ph g.point ∧ ph ≠ .waitPoint := by
  simp only [ownAccess, Bool.or_eq_true, Bool.and_eq_true, waits_iff] at h
  obtain (⟨-, h⟩ | ⟨-, h⟩) | ⟨-, h⟩ := h
  all_goals exact ⟨_, _, h, by simp⟩

/-- While the engine reports, a counted completion does to a port what concerns its slot and its request alone. -/
theorem afterCounted_eq (hb : s.bus.phase ≠ .idle) : ∃ x, afterCounted g o owed shared s p =
    (s.setPort p x).setEntry (.slot p) ((s.countedAsk g.point owed p).or (s.entry (.slot p))) := by
  have hrequest : ∀ forWrite, ∃ x, s.requestAccess p g.point forWrite =
      (s.setPort p x).setEntry (.slot p) (some ⟨g.point, forWrite⟩) := fun forWrite => by
    obtain ⟨x, hx⟩ := s.enterPhase_eq p .waitGrant
    exact ⟨x, by rw [requestAccess_of_busy p g.point forWrite hb, hx]⟩
  have hkept : ∀ x, (s.setPort p x).setEntry (.slot p) (s.entry (.slot p)) = s.setPort p x := fun x => by
    cases p <;> rfl
  unfold afterCounted
  dsimp only
  split_ifs with hdone hread hwrite
  · obtain ⟨name, ph, hwaits, hph⟩ := waitsIn_of_completes hdone
    rw [countedAsk_eq_none hwaits hph, Option.none_or]
    exact ⟨_, (hkept _).symm⟩
  · simpa [countedAsk, hread] using hrequest false
  · simpa [countedAsk, hread, hwrite] using hrequest true
  · refine ⟨s.port p, ?_⟩
    simp [countedAsk, hread, hwrite, setPort_port_self, setEntry_entry_self]

/-- What a counted completion does to both ports: their slots change, and each entry takes what its slot asks for. -/
theorem afterCounted_both (hb : w.bus.phase ≠ .idle) : ∃ x y,
    afterCounted g o owed shared (afterCounted g o owed shared w .primary) .maint = { w with
      primary := x, maint := y
      bus := { w.bus with entries := {
        scan := w.entry .scan
        primary := (w.countedAsk g.point owed .primary).or (w.entry (.slot .primary))
        maint := (w.countedAsk g.point owed .maint).or (w.entry (.slot .maint)) } } } := by
  obtain ⟨x, hx⟩ := afterCounted_eq (g := g) (o := o) (owed := owed) (shared := shared) (p := .primary) hb
  rw [hx]
  generalize (w.countedAsk g.point owed .primary).or (w.entry (.slot .primary)) = a
  obtain ⟨y, hy⟩ := afterCounted_eq (s := (w.setPort .primary x).setEntry (.slot .primary) a) (g := g) (o := o)
    (owed := owed) (shared := shared) (p := .maint) hb
  rw [hy, countedAsk_congr (s := w) (p := .maint) rfl]
  exact ⟨x, y, rfl⟩

/-! #### The completion as a whole -/

theorem exec_accessCompletion (s : State) : exec .accessCompletion s = execAccessCompletion s := rfl

/-- A completion that is next and counted is taken by `countCompletion`, and the engine enters IDLE (R25, R136). -/
theorem NextCompletion.exec_counted (h : s.NextCompletion g c) (hc : s.Counted g) :
    exec .accessCompletion s = .next (s.countCompletion g c).busIdle := by
  obtain ⟨⟨a, ha⟩, hl⟩ := h
  obtain ⟨hd, hr⟩ := hc
  have hret : (s.point g.point).state ≠ .retiring := fun e => by simp [e, Health.isDefined] at hd
  rw [exec_accessCompletion]
  simp [execAccessCompletion, ha, hl, done, takeCompletion, hret, hr]

theorem busIdle_eq (s : State) : ∃ b, s.busIdle = { s with bus := b } := grantNext_eq _

/-- A counted completion changes its point, block words, notice sets, slots and the engine, which grants its next request
(R83, R136). -/
theorem NextCompletion.completionFrame (h : s.NextCompletion g c) :
    s.CompletionFrame (s.countCompletion g c).busIdle g.point := by
  obtain ⟨⟨a, ha⟩, -⟩ := h
  have hframe := s.afterJudging_frame g.point c
  have hbus : (s.afterJudging g.point c).bus = s.bus := by rw [hframe]
  have hentry : ∀ r, (s.afterJudging g.point c).entry r = s.entry r := fun r => by rw [hframe]; rfl
  have hask : ∀ p, (s.afterJudging g.point c).countedAsk g.point (s.point g.point).writeAgain p =
      s.countedAsk g.point (s.point g.point).writeAgain p := fun p => countedAsk_congr (by rw [hframe]; rfl)
  obtain ⟨x, y, hxy⟩ := afterCounted_both (w := s.afterJudging g.point c) (g := g) (o := c.outcome)
    (owed := (s.point g.point).writeAgain) (shared := (s.afterJudging g.point c).isSharedWrite g) (by simp [hbus, ha])
  rw [← countCompletion_eq, hask, hask, hentry, hentry, hentry, hbus] at hxy
  have hslot : ∀ p, (s.countCompletion g c).entry (.slot p) =
      (s.countedAsk g.point (s.point g.point).writeAgain p).or (s.entry (.slot p)) := fun p => by
    rw [hxy]; cases p <;> rfl
  refine ⟨⟨s.countCompletion g c, by rw [hxy], by rw [hxy]; rfl, fun p q hq => ?_, fun p hp => ?_, rfl⟩, ?_⟩
  · rw [hslot, countedAsk_eq_some_iff.mpr hq, Option.some_or]
  · have hnone : s.countedAsk g.point (s.point g.point).writeAgain p = none :=
      Option.eq_none_iff_forall_ne_some.mpr fun q hq => hp q (countedAsk_eq_some_iff.mp hq)
    rw [hslot, hnone, Option.none_or]
  · obtain ⟨b, hbi⟩ := (s.countCompletion g c).busIdle_eq
    rw [hbi, hxy, hframe]

/-- The commands and the engine leave the records, the block words and the notice sets as the judging left them. -/
theorem countCompletion_busIdle_eq (hb : (s.afterJudging g.point c).bus.phase ≠ .idle) : ∃ x y b,
    (s.countCompletion g c).busIdle = { s.afterJudging g.point c with primary := x, maint := y, bus := b } := by
  obtain ⟨b, hbi⟩ := (s.countCompletion g c).busIdle_eq
  obtain ⟨x, y, hxy⟩ := afterCounted_both (g := g) (o := c.outcome) (owed := (s.point g.point).writeAgain)
    (shared := (s.afterJudging g.point c).isSharedWrite g) hb
  exact ⟨x, y, b, by rw [hbi, countCompletion_eq, hxy]⟩

/-- A counted completion, whatever its outcome: the record is as `judge` gives it, with what it raises taken in. -/
theorem NextCompletion.counted_effect (h : s.NextCompletion g c) (hc : s.Counted g) (hn : s.NoticesAgree) :
    ∃ t, exec .accessCompletion s = .next t ∧
      t.point g.point = { (judge (s.point g.point) (s.blockWords (s.point g.point)) c).point with
        inFlight := .none, writeAgain := false, causes := (t.point g.point).causes } ∧
      s.Raised t g.point (judge (s.point g.point) (s.blockWords (s.point g.point)) c).raised ∧
      (∀ m, m ≠ g.point → t.point m = s.point m) ∧
      t.segWords = (s.commitCompletion (s.point g.point) c).segWords ∧ s.CompletionFrame t g.point := by
  have hb : (s.afterJudging g.point c).bus.phase ≠ .idle := by
    obtain ⟨⟨a, ha⟩, -⟩ := h
    rw [afterJudging_frame, ha]
    exact BusPhase.noConfusion
  obtain ⟨x, y, b, ht⟩ := countCompletion_busIdle_eq hb
  exact ⟨_, h.exec_counted hc, by rw [ht]; exact s.point_afterJudging_self g.point c,
    by rw [ht]; exact hn.raised_afterJudging g.point c, fun m hm => by rw [ht]; exact point_afterJudging_ne hm,
    by rw [ht]; exact s.segWords_afterJudging g.point c, h.completionFrame⟩

end State

/-! ### Good reads (R85 to R87) -/

/-- R81: `extended`, width by width. -/
theorem extended_w8 (signed : Bool) (raw : Long) : extended signed .w8 raw =
    if signed then (raw.extractLsb' 0 8).signExtend 32 else (raw.extractLsb' 0 8).setWidth 32 := rfl

theorem extended_w16 (signed : Bool) (raw : Long) : extended signed .w16 raw =
    if signed then (raw.extractLsb' 0 16).signExtend 32 else (raw.extractLsb' 0 16).setWidth 32 := rfl

theorem extended_w32 (signed : Bool) (raw : Long) : extended signed .w32 raw = raw := by cases signed <;> rfl

/-- R86: CHANGE is raised from UNREAD, and where the distance exceeds DEADBAND. -/
theorem changeRaised_iff (r : Point) (new : Long) : changeRaised r new = true ↔
    r.state = .unread ∨ r.deadband.toNat < (reading r.signed new - reading r.signed r.reference).natAbs := by
  rw [changeRaised, Bool.or_eq_true, beq_iff_eq, decide_eq_true_iff, distance]

theorem causeIf_alarm (a b : Alarm) : causeIf (a != b) Cause.alarm = if a = b then 0 else 0x02 := by
  by_cases h : a = b <;> simp [causeIf, h, Cause.alarm]

theorem causeIf_recover (h : Health) : causeIf (h == .stale || h == .faulted) Cause.recover =
    if h = .stale ∨ h = .faulted then 0x10 else 0 := by
  cases h <;> rfl

/-- A good read: the value processing of an INPUT point (R81, R85 to R87), then the good transition (R9). -/
theorem judge_goodRead {r : Point} {before : List Word} {c : Completion} {raw v : Long} {alarm : Alarm}
    (hk : c.kind = .read) (ho : c.outcome = .ok) (hr : c.raw = some raw) (hv : v = extended r.signed r.width raw)
    (ha : alarm = if r.limits then alarmAfter r v else r.alarm) :
    judge r before c = {
      point := { r with
        value := v, reference := if changeRaised r v then v else r.reference, alarm := alarm
        state := .active, fails := 0, probe := 0 }
      raised := causeIf (changeRaised r v) Cause.change ||| (if alarm = r.alarm then 0 else 0x02) |||
        (if r.state = .stale ∨ r.state = .faulted then 0x10 else 0) } := by
  subst hv ha
  rw [← causeIf_alarm, ← causeIf_recover]
  simp only [judge, ho, judgeValue, hk, hr]
  rfl

/-- Settles O42: the record of a good read is `judge` of it, whose parts are R81, R86, R87 and R9. -/
theorem goodReadStoresTheValue : Obligations.GoodReadStoresTheValue := by
  intro g x raw s hx hc hn hkind hok hraw n r v num change bottom top alarm
  have hv : v = extended r.signed r.width raw := by
    unfold v
    cases r.width with
    | w8 => exact (extended_w8 r.signed raw).symm
    | w16 => exact (extended_w16 r.signed raw).symm
    | w32 => exact (extended_w32 r.signed raw).symm
  have halarm : alarm = if r.limits then alarmAfter r v else r.alarm := rfl
  have hchange : changeRaised r v = true ↔ change := changeRaised_iff r v
  obtain ⟨t, hexec, hpoint, hraised, hothers, hsegs, hframe⟩ := hx.counted_effect hc hn
  rw [judge_goodRead hkind hok hraw hv halarm] at hpoint hraised
  have hread : x.kind ≠ .blockRead := by simp [hkind]
  exact ⟨t, hexec, if changeRaised r v then v else r.reference,
    fun h => if_pos (hchange.mpr h), fun h => if_neg (mt hchange.mp h), hpoint,
    ⟨causeIf (changeRaised r v) Cause.change, fun h => if_pos (hchange.mpr h), fun h => if_neg (mt hchange.mp h),
      hraised⟩, hothers, hsegs.trans (by rw [State.commitCompletion_of_ne hread]), hframe⟩

end Sys2Proof.Machine
end

/-! ### Claims (R153 to R156) -/

section

namespace Sys2Proof.Machine

/-- In an ascending list the least member is the first. -/
theorem head?_of_least {l : List PointNo} {n : PointNo} (h : l.Pairwise (· < ·)) (hn : n ∈ l) (hle : ∀ m ∈ l, n ≤ m) :
    l.head? = some n := by
  cases l with
  | nil => simp at hn
  | cons m ms =>
    rcases List.mem_cons.mp hn with rfl | hms
    · rfl
    · have hlt : m < n := (List.pairwise_cons.mp h).1 n hms
      exact absurd (hle m (by simp)) (not_le.mpr hlt)

namespace State

variable {s : State} {v : Via} {p : Port} {u : Level} {n : PointNo}

/-! #### The choice (R153) -/

/-- The selected level, or with none selected the first of the order that is open and has a member (R153, R156). -/
def ClaimsFrom (s : State) (p : Port) (u : Level) : Prop :=
  (s.port p).claimLevel = some u ∨ ((s.port p).claimLevel = none ∧
    ∃ before after, s.notify.order.toList = before ++ u :: after ∧
      s.notify.mask.getLsbD u.val = true ∧ s.noticeSet u ≠ [] ∧
      ∀ x ∈ before, s.notify.mask.getLsbD x.val = false ∨ s.noticeSet x = [])

/-- `claimFrom` is `ClaimsFrom` as a function. -/
theorem claimFrom_eq_some_iff : s.claimFrom p = some u ↔ s.ClaimsFrom p u := by
  unfold claimFrom ClaimsFrom
  cases (s.port p).claimLevel with
  | some x => simp
  | none =>
    simp only [List.find?_eq_some_iff_append, isOpen, Bool.and_eq_true, Bool.not_eq_true', List.isEmpty_eq_false_iff,
      Bool.not_and, Bool.or_eq_true, Bool.not_not, List.isEmpty_iff, reduceCtorEq, false_or, true_and]
    grind

/-- The lowest-numbered member of the level is chosen, the sets being in ascending order (R148). -/
theorem NoticesAgree.claimChoice_eq_some (h : s.NoticesAgree) (hu : s.ClaimsFrom p u) (hn : n ∈ s.noticeSet u)
    (hle : ∀ m ∈ s.noticeSet u, n ≤ m) : s.claimChoice p = some (u, n) := by
  obtain ⟨hasc, -⟩ := h
  simp [claimChoice, claimFrom_eq_some_iff.mpr hu, head?_of_least (hasc u) hn hle]

/-- A level without a member, or no level at all, gives a claim nothing to choose. -/
theorem claimChoice_eq_none (h : ∀ u, s.ClaimsFrom p u → s.noticeSet u = []) : s.claimChoice p = none := by
  unfold claimChoice
  cases hu : s.claimFrom p with
  | none => rfl
  | some u => simp [h u (claimFrom_eq_some_iff.mp hu)]

/-! #### The chosen point (R149) -/

/-- Emptying CAUSES that hold something takes the point out of the set of its LEVEL. -/
theorem emptyCauses_of_causes_ne (h : (s.point n).causes ≠ 0) : s.emptyCauses n =
    (s.setPoint n { s.point n with causes := 0 }).leaveNotice (s.point n).level n := by
  unfold emptyCauses setCauses
  simp only [if_neg h, if_true]

/-- What a claim at level `u` does to the point `n` it finds: at an AUTO level its CAUSES are emptied (R154). -/
def clearClaimed (s : State) (u : Level) (n : PointNo) : State := if s.isAck u then s else s.emptyCauses n

theorem clearClaimed_of_ack (h : s.isAck u = true) : s.clearClaimed u n = s := if_pos h

theorem clearClaimed_of_auto (h : s.isAck u = false) : s.clearClaimed u n = s.emptyCauses n := by
  simp [clearClaimed, h]

/-- Only records and notice sets can change in the point found. -/
theorem clearClaimed_frame (s : State) (u : Level) (n : PointNo) : s.clearClaimed u n = { s with
    points := (s.clearClaimed u n).points
    notify := { s.notify with sets := (s.clearClaimed u n).notify.sets } } := by
  cases h : s.isAck u with
  | true => rw [clearClaimed_of_ack h]
  | false => rw [clearClaimed_of_auto h]; exact setCauses_frame s n 0

theorem noticeSet_leaveNotice (s : State) (u v : Level) (n : PointNo) : (s.leaveNotice u n).noticeSet v =
    if u = v then (s.noticeSet v).filter (· ≠ n) else s.noticeSet v := by
  unfold leaveNotice
  split_ifs with h
  · subst h; simp
  · simp [h]

/-- A point whose CAUSES are emptied is in no set, having been in that of its LEVEL alone (R148, R149). -/
theorem NoticesAgree.leavesNotices_emptyCauses (h : s.NoticesAgree) (hn : (s.point n).causes ≠ 0) :
    s.LeavesNotices (s.emptyCauses n) n := by
  obtain ⟨-, hmem⟩ := h
  intro v
  rw [emptyCauses_of_causes_ne hn, noticeSet_leaveNotice]
  split_ifs with hv
  · simp
  · have hnot : n ∉ s.noticeSet v := fun hm => hv ((hmem n v).mp hm).2
    have hall : ∀ m ∈ s.noticeSet v, m ≠ n := fun m hm => ne_of_mem_of_not_mem hm hnot
    simpa using (List.filter_eq_self.mpr (by simpa using hall)).symm

/-! #### The read (R154, R165) -/

/-- A word the port takes in a read is shifted out, the access having had its effect (R164, R165). -/
theorem ReadsFrom.portRead_eq {a : BitVec 7} (h : s.ReadsFrom v a) (w : Word) (access : State → Word × State) :
    s.portRead v a w access = (access (s.closeWrite v)).2.send v.port (access (s.closeWrite v)).1 := by
  obtain ⟨htaken, hloading⟩ := h
  have hl : (s.closeWrite v).loading = false := by cases v <;> exact hloading
  simp [portRead, htaken, hl]

/-- What a claim does to the port it is read through: `w` is shifted out, causes and value are latched, and the
selection is removed (R154 to R156). -/
def answerClaim (v : Via) (w causes : Word) (value : Long) (s : State) : State :=
  ((s.closeWrite v).latchClaim v.port causes value).send v.port w

@[simp] theorem answerClaim_keeps (v : Via) (w causes : Word) (value : Long) (s : State) :
    (s.answerClaim v w causes value).points = s.points ∧
    (s.answerClaim v w causes value).notify = s.notify ∧
    (∀ m : PointNo, (s.answerClaim v w causes value).point m = s.point m) ∧
    (∀ x : Level, (s.answerClaim v w causes value).noticeSet x = s.noticeSet x) := by
  cases v <;> exact ⟨rfl, rfl, fun _ => rfl, fun _ => rfl⟩

theorem port_answerClaim_self (v : Via) (w causes : Word) (value : Long) (s : State) :
    (s.answerClaim v w causes value).port v.port =
      { s.port v.port with claimCauses := causes, claimValue := value, claimLevel := none, sent := w } := by
  cases v <;> rfl

theorem port_answerClaim_other (v : Via) (w causes : Word) (value : Long) (s : State) :
    (s.answerClaim v w causes value).port (otherPort v.port) = s.port (otherPort v.port) := by
  cases v <;> rfl

theorem answerClaim_frame (v : Via) (w causes : Word) (value : Long) (s : State) :
    s.answerClaim v w causes value = { s with
      primary := (s.answerClaim v w causes value).primary
      maint := (s.answerClaim v w causes value).maint
      i2cWriteOpen := (s.answerClaim v w causes value).i2cWriteOpen
      sdo := match v with | .spi => (s.answerClaim v w causes value).sdo | .i2c _ => s.sdo } := by
  cases v <;> rfl

theorem exec_claim (v : Via) (s : State) : exec (.claim v) s = execClaim v s := rfl

/-- The I2C write transaction before the read has no part in the choice. -/
theorem claimChoice_closeWrite (s : State) (v : Via) (p : Port) :
    (s.closeWrite v).claimChoice p = s.claimChoice p := by
  cases v <;> cases p <;> rfl

/-- A claim that finds nothing (R154). -/
theorem ReadsFrom.exec_claim_none (h : s.ReadsFrom v Reg.claim) (hc : s.claimChoice v.port = none) :
    exec (.claim v) s = .next (s.answerClaim v claimNone 0 0) := by
  rw [exec_claim, execClaim, h.portRead_eq, takeClaim, claimChoice_closeWrite, hc]
  rfl

/-- A claim that finds a point with causes (R154): the answer, and at an AUTO level the emptying. -/
theorem ReadsFrom.exec_claim_some (h : s.ReadsFrom v Reg.claim) (hc : s.claimChoice v.port = some (u, n))
    (hn : (s.point n).causes ≠ 0) : exec (.claim v) s =
      .next ((s.clearClaimed u n).answerClaim v (BitVec.ofNat 16 n.val)
        (wordOf (BitVec.ofNat 8 n.val) (s.point n).causes) (s.point n).value) := by
  have hack : (s.closeWrite v).isAck u = s.isAck u := by cases v <;> rfl
  have hpoint : (s.closeWrite v).point n = s.point n := by cases v <;> rfl
  rw [exec_claim, execClaim, h.portRead_eq, takeClaim, claimChoice_closeWrite, hc]
  simp only [hack, hpoint, clearClaimed, done]
  generalize wordOf (BitVec.ofNat 8 n.val) (s.point n).causes = causes
  split_ifs
  · rfl
  · have hlatched : (((s.closeWrite v).latchClaim v.port causes (s.point n).value).point n).causes ≠ 0 := by
      cases v <;> exact hn
    rw [emptyCauses_of_causes_ne hlatched, emptyCauses_of_causes_ne hn]
    cases v <;> rfl

/-- The answer to a claim, given on a state `x` that differs from `s` in records and notice sets alone. -/
theorem answerClaim_effect {x : State} (v : Via) (w causes : Word) (value : Long)
    (hx : x = { s with points := x.points, notify := { s.notify with sets := x.notify.sets } }) :
    let t := x.answerClaim v w causes value
    t.port v.port = { s.port v.port with
      claimCauses := causes, claimValue := value, claimLevel := none, sent := w } ∧
    t.port (otherPort v.port) = s.port (otherPort v.port) ∧
    t = { s with
      points := t.points, notify := { s.notify with sets := t.notify.sets }, primary := t.primary
      maint := t.maint, i2cWriteOpen := t.i2cWriteOpen
      sdo := match v with | .spi => t.sdo | .i2c _ => s.sdo } := by
  have hport : ∀ o, x.port o = s.port o := fun o => by rw [hx]; cases o <;> rfl
  refine ⟨by rw [port_answerClaim_self, hport], by rw [port_answerClaim_other, hport], ?_⟩
  rw [hx]
  cases v <;> rfl

end State

/-- Settles O52: the choice is that of R153, and what is done with it is `exec_claim_some` or `exec_claim_none`. -/
theorem claimTakesTheFirstNotice : Obligations.ClaimTakesTheFirstNotice := by
  intro v s hr hagree p from_
  refine ⟨fun u n hu hn hle => ?found, fun hnothing => ?nothing⟩
  case found =>
    have ⟨_, hmem⟩ := hagree
    obtain ⟨hcauses, -⟩ := (hmem n u).mp hn
    obtain ⟨hport, hother, hframe⟩ := State.answerClaim_effect v (BitVec.ofNat 16 n.val)
      (wordOf (BitVec.ofNat 8 n.val) (s.point n).causes) (s.point n).value (s.clearClaimed_frame u n)
    refine ⟨_, hr.exec_claim_some (hagree.claimChoice_eq_some hu hn hle) hcauses, hport, hother, fun hauto => ?auto,
      fun hack => ?ack, hframe⟩
    case auto =>
      rw [State.clearClaimed_of_auto hauto]
      refine ⟨?_, fun m hm => ?_, fun x => ?_⟩
      · simp [State.emptyCauses, State.point_setCauses]
      · simp [State.emptyCauses, State.point_setCauses, hm.symm]
      · simpa using hagree.leavesNotices_emptyCauses hcauses x
    case ack =>
      rw [State.clearClaimed_of_ack hack]
      simp
  case nothing =>
    exact ⟨_, hr.exec_claim_none (State.claimChoice_eq_none hnothing), State.port_answerClaim_self _ _ _ _ _,
      State.port_answerClaim_other _ _ _ _ _, State.answerClaim_frame _ _ _ _ _⟩

end Sys2Proof.Machine

end

/-! ### The segment pool (R100 to R102) -/

section

namespace Sys2Proof.Machine

namespace State

variable {s : State}

theorem pairwise_foldl_insertAsc (gs : List SegNo) {l : List SegNo} (h : l.Pairwise (· < ·)) :
    (gs.foldl (fun l g => insertAsc g l) l).Pairwise (· < ·) := by
  induction gs generalizing l with
  | nil => exact h
  | cons g gs ih => exact ih (pairwise_insertAsc g h)

theorem mem_foldl_insertAsc {g : SegNo} (gs l : List SegNo) :
    g ∈ gs.foldl (fun l g => insertAsc g l) l ↔ g ∈ l ∨ g ∈ gs := by
  induction gs generalizing l with
  | nil => simp
  | cons x gs ih =>
    rw [List.foldl_cons, ih, mem_insertAsc, List.mem_cons]
    tauto

/-- Returned segments join an ascending free list, which stays ascending (R102). -/
theorem returned_returnSegments (h : s.freeSegs.Pairwise (· < ·)) (gs : List SegNo) :
    s.Returned (s.returnSegments gs) gs :=
  ⟨pairwise_foldl_insertAsc gs h, fun _ => mem_foldl_insertAsc gs s.freeSegs⟩

theorem segWords_foldl_zeroSegment (gs : List SegNo) (g : SegNo) :
    (gs.foldl zeroSegment s).segWords[g.val] = if g ∈ gs then Vector.replicate 8 0 else s.segWords[g.val] := by
  induction gs generalizing s with
  | nil => simp
  | cons x gs ih =>
    rw [List.foldl_cons, ih]
    by_cases hx : x = g
    · simp [zeroSegment, hx]
    · have hv : x.val ≠ g.val := fun e => hx (Fin.ext e)
      simp [zeroSegment, Ne.symm hx, Vector.getElem_set, hv]

/-- The words of the segments taken read zero, and no other word has changed (R101). -/
theorem segWords_takeSegments (s : State) (k : Nat) (g : SegNo) :
    (s.takeSegments k).segWords[g.val] =
      if g ∈ s.freeSegs.take k then Vector.replicate 8 0 else s.segWords[g.val] :=
  segWords_foldl_zeroSegment (s := { s with freeSegs := s.freeSegs.drop k }) (s.freeSegs.take k) g

theorem takeSegments_frame (s : State) (k : Nat) :
    s.takeSegments k = { s with freeSegs := s.freeSegs.drop k, segWords := (s.takeSegments k).segWords } := by
  obtain ⟨w, hw⟩ := s.takeSegments_eq k
  rw [hw]

/-- In an ascending list what is taken from the front is below what stays. -/
theorem lt_of_mem_take_of_mem_drop {l : List SegNo} {k : Nat} (h : l.Pairwise (· < ·)) {g x : SegNo}
    (hg : g ∈ l.take k) (hx : x ∈ l.drop k) : g < x := by
  rw [← List.take_append_drop k l] at h
  exact (List.pairwise_append.mp h).2.2 g hg x hx

end State

/-- Settles O32, by the fold that taking is and the fold that returning is. -/
theorem segmentsAreTakenAndReturned : Obligations.SegmentsAreTakenAndReturned :=
  ⟨fun s k => ⟨s.takeSegments_freeSegs k, s.segWords_takeSegments k,
      fun h _ hg _ hx => State.lt_of_mem_take_of_mem_drop h hg hx, s.takeSegments_frame k⟩,
    fun _ gs h => ⟨State.returned_returnSegments h gs, rfl⟩⟩

end Sys2Proof.Machine

end

/-! ### What an event can do: one case per kind of effect, with what made it due -/

section

namespace Sys2Proof.Machine

namespace State

/-- What the table engine does with a command of this name. DISMISS is not passed to it (R30). -/
def commandAct : CmdName → Port → Command → State → State
  | .define => takeDefine
  | .modify => takeModify
  | .retire => takeRetire
  | .hold => takeHold
  | .release => takeRelease
  | .read => takeRead
  | .readNow => takeReadNow
  | .write => takeWrite
  | .setRegion => takeSetRegion
  | .getRegion => takeGetRegion
  | .setClass => takeSetClass
  | .getClass => takeGetClass
  | .clearAll => takeClearAll
  | .unknown => takeBadCommand
  | .dismiss => fun _ _ s => s

/-- The row of a command is `onCommand` with what the command does. -/
theorem exec_commandRow {name : CmdName} {p : Port} {i : Instr} (h : commandRow name p = some i) (s : State) :
    exec i s = onCommand p name (commandAct name p) s := by
  cases name <;> simp only [commandRow, Option.some.injEq, reduceCtorEq] at h <;> subst h <;> rfl

/-- A command that is next is carried out whole, its slot counting as taken last (R4). -/
theorem NextCommand.exec_row {s : State} {name : CmdName} {p : Port} {i : Instr} {c : Command}
    (h : s.NextCommand p name c) (hi : commandRow name p = some i) :
    exec i s = .next (commandAct name p c { s with lastTaken := .slot p }) := by
  rw [exec_commandRow hi, onCommand_taken h.taken]

/-- The state `s` goes to, by an event that is due with what made it due, or by one that is not. -/
inductive Effect (s : State) : State → Prop
  | nothing : Effect s s
  | command (p : Port) (name : CmdName) (c : Command) (h : s.NextCommand p name c) :
      Effect s (commandAct name p c { s with lastTaken := .slot p })
  | start (g : Grant) (h : s.bus.phase = .granted g) (hl : s.loading = false) : Effect s (s.takeStart g)
  | backN (asserted : Bool) : Effect s { s with backAsserted := asserted }
  | beatReleased (g : Grant) (a : Access) (op : BeatOp) (h : s.bus.phase = .running g a) :
      Effect s (({ s with backAsserted := false }.setPins (strobePins a op s.bus.pins)).setPhase
        (.running g { a with stage := .acknowledge }))
  | beatEnded (asserted : Bool) (g : Grant) (a : Access) (bd : Word) (h : s.bus.phase = .running g a) :
      Effect s ({ s with backAsserted := asserted }.endBeat g a bd)
  | timeout (g : Grant) (a : Access) (h : s.bus.phase = .running g a) : Effect s (s.reportAccess g a .timeout)
  | completion (g : Grant) (c : Completion) (h : s.NextCompletion g c) : Effect s (s.takeCompletion g c)
  | clk (periods : Nat) : Effect s (s.runClk periods)
  | expiry (c : ClassNo) (h : s.expiryDue c = true) : Effect s (s.takeExpiry c)
  | choice (h : s.mayChoose = true) : Effect s s.chooseWork
  | visit (w : ScanWork) (h : s.scan.req = .visiting w) (ht : s.tableTurn = some .scan) :
      Effect s ({ s with lastTaken := .scan }.takeVisit w)
  | atn (l : LineNo) (high : Bool) : Effect s (s.takeAtn l high)
  | flagSetAgain (l : LineNo) (hl : s.loading = false) : Effect s (s.keepFlag l)
  | write (p : Port) (addr : BitVec 7) (w : Word) (hl : s.loading = false) : Effect s (writeAny p addr w s)
  | readHeld (v : Via) : Effect s ((s.closeWrite v).send v.port 0)
  | claim (v : Via) (hl : s.loading = false) :
      Effect s ((takeClaim v.port (s.closeWrite v)).2.send v.port (takeClaim v.port (s.closeWrite v)).1)
  | blkDataRead (v : Via) (hl : s.loading = false) :
      Effect s ((readBlkData v.port (s.closeWrite v)).2.send v.port (readBlkData v.port (s.closeWrite v)).1)
  | commandByte (b : Byte) : Effect s (s.takeCommandByte b)
  | transferEnd : Effect s { s with spi := .ready, sdo := .undriven }
  | pointer (target : BitVec 7) (b : Byte) : Effect s (s.takePointer target b)
  | coldReset (madrHigh scsLow : Bool) : Effect s (s.coldReset madrHigh scsLow)
  | verdict (v : Verdict) (h : s.loader.state = .verify) : Effect s (s.takeVerdict v)
  | undone (h : s.loader.state = .apply) : Effect s s.undoLoad
  | header (ws : List Word) (h : s.loader.state = .apply) : Effect s ((s.addSum ws).applyHeader ws)
  | regionRecord (ws : List Word) (h : s.loader.state = .apply) : Effect s ((s.addSum ws).applyRegionRecord ws)
  | pointRecord (ws : List Word) (h : s.loader.state = .apply) : Effect s ((s.addSum ws).applyPointRecord ws)
  | checksum (ws : List Word) (h : s.loader.state = .apply) : Effect s ((s.addSum ws).judgeSum ws)

variable {s : State}

theorem effect_commandRow {name : CmdName} {p : Port} {i : Instr} (h : commandRow name p = some i) (s : State) :
    ∃ t, exec i s = .next t ∧ s.Effect t := by
  rw [exec_commandRow h]
  cases hc : takenCommand s p name with
  | none => exact ⟨_, onCommand_notTaken hc, .nothing⟩
  | some c => exact ⟨_, onCommand_taken hc, .command p name c (takenCommand_eq_some.mp hc)⟩

/-- A register write is ignored or has the effect its address has in the register window (R166, R172). -/
theorem effect_portWrite (v : Via) (addr : BitVec 7) (w : Word) {f : State → State} (hf : f s = writeAny v.port addr w s) :
    ∃ t, (done (s.portWrite v addr f) : Host.Outcome State Fault Refusal) = .next t ∧ s.Effect t := by
  refine ⟨_, rfl, ?_⟩
  unfold portWrite
  split_ifs with h
  · rw [Bool.and_eq_true, Bool.not_eq_true'] at h
    rw [hf]
    exact .write _ _ _ h.2
  · exact .nothing

/-- The row of a transaction of the apply pass for `n` words. -/
theorem effect_applyTransaction {n : Nat} {r : EepromRead} {apply : State → List Word → State} {due : Bool}
    (hd : due = true → s.loader.state = .apply) (ha : ∀ ws, s.loader.state = .apply → s.Effect (apply (s.addSum ws) ws)) :
    ∃ t, (if due && s.makes r then done (s.applyTransaction n r.answer apply) else done s) = .next t ∧ s.Effect t := by
  split_ifs with h
  · have happly := hd (Bool.and_eq_true _ _ ▸ h).1
    refine ⟨_, rfl, ?_⟩
    unfold applyTransaction
    split
    · exact .undone happly
    · exact ha _ happly
    · exact .nothing
  · exact ⟨s, rfl, .nothing⟩

theorem effect_accessStart (s : State) : ∃ t, exec .accessStart s = .next t ∧ s.Effect t := by
  show ∃ t, execAccessStart s = .next t ∧ s.Effect t
  unfold execAccessStart
  cases hp : s.bus.phase with
  | granted g =>
    dsimp only
    split_ifs with hl
    · exact ⟨s, rfl, .nothing⟩
    · exact ⟨_, rfl, .start g hp (by simpa using hl)⟩
  | idle | running _ _ | reporting _ _ _ => exact ⟨s, rfl, .nothing⟩

/-- BACK_N seen deasserted ends the release stage (R133). -/
theorem exec_beatRelease_of_release {g : Grant} {a : Access} {op : BeatOp} (hp : s.bus.phase = .running g a)
    (hs : a.stage = .release) (hop : beatOp a = some op) :
    exec .beatRelease s = .next (({ s with backAsserted := false }.setPins (strobePins a op s.bus.pins)).setPhase
      (.running g { a with stage := .acknowledge })) := by
  show execBeatRelease s = _
  simp only [execBeatRelease, hp, hs, hop]
  rfl

/-- Outside the release stage a deassertion is the level alone (R133). -/
theorem exec_beatRelease_of_ne
    (h : ∀ g a op, s.bus.phase = .running g a → a.stage = .release → beatOp a ≠ some op) :
    exec .beatRelease s = .next { s with backAsserted := false } := by
  show execBeatRelease s = _
  cases hp : s.bus.phase with
  | running g a =>
    cases hs : a.stage with
    | release =>
      cases hop : beatOp a with
      | some op => exact absurd hop (h g a op hp hs)
      | none => simp only [execBeatRelease, hp, hs, hop, done]
    | timed | acknowledge => simp only [execBeatRelease, hp, hs, done]
  | idle | granted _ | reporting _ _ _ => simp only [execBeatRelease, hp, done]

/-- BACK_N seen asserted ends a beat in its acknowledge stage (R133). -/
theorem exec_beatAcknowledge_of_acknowledge {g : Grant} {a : Access} (bd : Word) (hp : s.bus.phase = .running g a)
    (hs : a.stage = .acknowledge) :
    exec (.beatAcknowledge bd) s = .next ({ s with backAsserted := true }.endBeat g a bd) := by
  show execBeatAcknowledge bd s = _
  simp only [execBeatAcknowledge, hp, hs, done]

/-- Outside the acknowledge stage an assertion is the level alone (R135). -/
theorem exec_beatAcknowledge_of_ne (bd : Word) (h : ∀ g a, s.bus.phase = .running g a → a.stage ≠ .acknowledge) :
    exec (.beatAcknowledge bd) s = .next { s with backAsserted := true } := by
  show execBeatAcknowledge bd s = _
  cases hp : s.bus.phase with
  | running g a =>
    cases hs : a.stage with
    | acknowledge => exact absurd hs (h g a hp)
    | timed | release => simp only [execBeatAcknowledge, hp, hs, done]
  | idle | granted _ | reporting _ _ _ => simp only [execBeatAcknowledge, hp, done]

theorem effect_beatRelease (s : State) : ∃ t, exec .beatRelease s = .next t ∧ s.Effect t := by
  by_cases h : ∀ g a op, s.bus.phase = .running g a → a.stage = .release → beatOp a ≠ some op
  · exact ⟨_, exec_beatRelease_of_ne h, .backN false⟩
  · push Not at h
    obtain ⟨g, a, op, hp, hs, hop⟩ := h
    exact ⟨_, exec_beatRelease_of_release hp hs hop, .beatReleased g a op hp⟩

theorem effect_beatAcknowledge (bd : Word) (s : State) : ∃ t, exec (.beatAcknowledge bd) s = .next t ∧ s.Effect t := by
  by_cases h : ∀ g a, s.bus.phase = .running g a → a.stage ≠ .acknowledge
  · exact ⟨_, exec_beatAcknowledge_of_ne bd h, .backN true⟩
  · push Not at h
    obtain ⟨g, a, hp, hs⟩ := h
    exact ⟨_, exec_beatAcknowledge_of_acknowledge bd hp hs, .beatEnded true g a bd hp⟩

theorem effect_selfPacedBeatEnd (bd : Word) (s : State) :
    ∃ t, exec (.selfPacedBeatEnd bd) s = .next t ∧ s.Effect t := by
  show ∃ t, execSelfPacedBeatEnd bd s = .next t ∧ s.Effect t
  unfold execSelfPacedBeatEnd
  cases hp : s.bus.phase with
  | running g a =>
    dsimp only
    split_ifs
    · exact ⟨_, rfl, .beatEnded s.backAsserted g a bd hp⟩
    · exact ⟨s, rfl, .nothing⟩
  | idle | granted _ | reporting _ _ _ => exact ⟨s, rfl, .nothing⟩

theorem effect_beatTimeout (s : State) : ∃ t, exec .beatTimeout s = .next t ∧ s.Effect t := by
  show ∃ t, execBeatTimeout s = .next t ∧ s.Effect t
  unfold execBeatTimeout
  cases hp : s.bus.phase with
  | running g a =>
    dsimp only
    split_ifs
    · exact ⟨_, rfl, .timeout g a hp⟩
    · exact ⟨s, rfl, .nothing⟩
  | idle | granted _ | reporting _ _ _ => exact ⟨s, rfl, .nothing⟩

theorem effect_accessCompletion (s : State) : ∃ t, exec .accessCompletion s = .next t ∧ s.Effect t := by
  show ∃ t, execAccessCompletion s = .next t ∧ s.Effect t
  unfold execAccessCompletion
  cases hp : s.bus.phase with
  | reporting g a c =>
    dsimp only
    split_ifs with hl
    · exact ⟨s, rfl, .nothing⟩
    · exact ⟨_, rfl, .completion g c ⟨⟨a, hp⟩, by simpa using hl⟩⟩
  | idle | granted _ | running _ _ => exact ⟨s, rfl, .nothing⟩

theorem effect_visit (s : State) : ∃ t, exec .visit s = .next t ∧ s.Effect t := by
  show ∃ t, execVisit s = .next t ∧ s.Effect t
  unfold execVisit
  cases hr : s.scan.req with
  | visiting w =>
    dsimp only
    split_ifs with ht
    · exact ⟨_, rfl, .visit w hr ht⟩
    · exact ⟨s, rfl, .nothing⟩
  | free | requested => exact ⟨s, rfl, .nothing⟩

theorem effect_verifyPass (r : EepromRead) (s : State) : ∃ t, exec (.verifyPass r) s = .next t ∧ s.Effect t := by
  show ∃ t, execVerifyPass r s = .next t ∧ s.Effect t
  unfold execVerifyPass
  split_ifs with h
  · cases verdict r.answer with
    | some v => exact ⟨_, rfl, .verdict v h.1⟩
    | none => exact ⟨s, rfl, .nothing⟩
  · exact ⟨s, rfl, .nothing⟩

/-- A word read while LOADING has no side effect; otherwise the access has its own (R170). -/
theorem effect_portRead (v : Via) (addr : BitVec 7) {access : State → Word × State}
    (ha : s.loading = false → s.Effect ((access (s.closeWrite v)).2.send v.port (access (s.closeWrite v)).1)) :
    ∃ t, (done (s.portRead v addr 0 access) : Host.Outcome State Fault Refusal) = .next t ∧ s.Effect t := by
  refine ⟨_, rfl, ?_⟩
  have hl : (s.closeWrite v).loading = s.loading := by cases v <;> rfl
  unfold portRead
  dsimp only
  rw [hl]
  split_ifs with _ h
  · exact .readHeld v
  · exact ha (by simpa using h)
  · exact .nothing

theorem expectsHeader_apply (h : s.expectsHeader = true) : s.loader.state = .apply := by
  simp only [expectsHeader, Bool.and_eq_true, beq_iff_eq] at h
  exact h.1

theorem expectsRegion_apply (h : s.expectsRegion = true) : s.loader.state = .apply := by
  simp only [expectsRegion, Bool.and_eq_true, beq_iff_eq] at h
  exact h.1.1

theorem expectsPoint_apply (h : s.expectsPoint = true) : s.loader.state = .apply := by
  simp only [expectsPoint, Bool.and_eq_true, beq_iff_eq] at h
  exact h.1.1.1

theorem expectsChecksum_apply (h : s.expectsChecksum = true) : s.loader.state = .apply := by
  simp only [expectsChecksum, Bool.and_eq_true, beq_iff_eq] at h
  exact h.1.1.1

/-- Every event leads to a next state, by one of the effects. -/
theorem exec_effect (i : Instr) (s : State) : ∃ t, exec i s = .next t ∧ s.Effect t := by
  cases i with
  | define p => exact effect_commandRow (name := .define) rfl s
  | modify p => exact effect_commandRow (name := .modify) rfl s
  | retire p => exact effect_commandRow (name := .retire) rfl s
  | hold p => exact effect_commandRow (name := .hold) rfl s
  | release p => exact effect_commandRow (name := .release) rfl s
  | read p => exact effect_commandRow (name := .read) rfl s
  | readNow p => exact effect_commandRow (name := .readNow) rfl s
  | write p => exact effect_commandRow (name := .write) rfl s
  | setRegion p => exact effect_commandRow (name := .setRegion) rfl s
  | getRegion p => exact effect_commandRow (name := .getRegion) rfl s
  | setClass p => exact effect_commandRow (name := .setClass) rfl s
  | getClass p => exact effect_commandRow (name := .getClass) rfl s
  | clearAll p => exact effect_commandRow (name := .clearAll) rfl s
  | badCommand p => exact effect_commandRow (name := .unknown) rfl s
  | accessStart => exact effect_accessStart s
  | beatRelease => exact effect_beatRelease s
  | beatAcknowledge bd => exact effect_beatAcknowledge bd s
  | selfPacedBeatEnd bd => exact effect_selfPacedBeatEnd bd s
  | beatTimeout => exact effect_beatTimeout s
  | accessCompletion => exact effect_accessCompletion s
  | timebaseTick n => exact ⟨_, rfl, .clk n⟩
  | classTimerExpiry c =>
    show ∃ t, execClassTimerExpiry c s = .next t ∧ s.Effect t
    unfold execClassTimerExpiry
    split_ifs with h
    · exact ⟨_, rfl, .expiry c h⟩
    · exact ⟨s, rfl, .nothing⟩
  | scanChoose =>
    show ∃ t, execScanChoose s = .next t ∧ s.Effect t
    unfold execScanChoose
    split_ifs with h
    · exact ⟨_, rfl, .choice h⟩
    · exact ⟨s, rfl, .nothing⟩
  | visit => exact effect_visit s
  | atnEvent l high => exact ⟨_, rfl, .atn l high⟩
  | attentionFlagSetAgain l =>
    show ∃ t, execAttentionFlagSetAgain l s = .next t ∧ s.Effect t
    unfold execAttentionFlagSetAgain
    split_ifs with h
    · exact ⟨s, rfl, .nothing⟩
    · exact ⟨_, rfl, .flagSetAgain l (by simpa using h)⟩
  | dismiss v operand => exact effect_portWrite v Reg.cmd (wordOf dismissCode operand) rfl
  | cmdWrite v w => exact effect_portWrite v Reg.cmd w rfl
  | attnConfigWrite v n w => exact effect_portWrite v (Reg.attnConfig n) w (by fin_cases n <;> rfl)
  | edgeSeenClear v w => exact effect_portWrite v Reg.attnState w rfl
  | overrunClear v w => exact effect_portWrite v Reg.classState w rfl
  | claimLevel v w => exact effect_portWrite v Reg.claimLevel w rfl
  | ack v w => exact effect_portWrite v Reg.ack w rfl
  | levelMask v w => exact effect_portWrite v Reg.levelMask w rfl
  | levelType v w => exact effect_portWrite v Reg.levelType w rfl
  | levelOrderLo v w => exact effect_portWrite v Reg.levelOrderLo w rfl
  | levelOrderHi v w => exact effect_portWrite v Reg.levelOrderHi w rfl
  | scanRunSet v n d => exact effect_portWrite v Reg.control (controlWord true n d false) rfl
  | scanRunClear v n d => exact effect_portWrite v Reg.control (controlWord false n d false) rfl
  | notifyEn v on r d => exact effect_portWrite v Reg.control (controlWord r on d false) rfl
  | doneInt v on r n => exact effect_portWrite v Reg.control (controlWord r n on false) rfl
  | warm v r n d => exact effect_portWrite v Reg.control (controlWord r n d true) rfl
  | orderErrClear v c => exact effect_portWrite v Reg.status (statusWord true c) rfl
  | collisionClear v e => exact effect_portWrite v Reg.status (statusWord e true) rfl
  | blkDataWrite v w => exact effect_portWrite v Reg.blkData w rfl
  | registerWrite v addr w => exact effect_portWrite v addr w rfl
  | claim v => exact effect_portRead v Reg.claim fun hl => .claim v hl
  | blkDataRead v => exact effect_portRead v Reg.blkData fun hl => .blkDataRead v hl
  | pointerWrite target b => exact ⟨_, rfl, .pointer target b⟩
  | commandByte b => exact ⟨_, rfl, .commandByte b⟩
  | transferEnd => exact ⟨_, rfl, .transferEnd⟩
  | coldReset m c => exact ⟨_, rfl, .coldReset m c⟩
  | verifyPass r => exact effect_verifyPass r s
  | loadHeader r => exact effect_applyTransaction expectsHeader_apply fun ws h => .header ws h
  | loadRegionRecord r => exact effect_applyTransaction expectsRegion_apply fun ws h => .regionRecord ws h
  | loadPointRecord r => exact effect_applyTransaction expectsPoint_apply fun ws h => .pointRecord ws h
  | loadChecksum r => exact effect_applyTransaction expectsChecksum_apply fun ws h => .checksum ws h

/-- An event leads to no other state than its effect. -/
theorem effect_of_exec {i : Instr} {t : State} (h : exec i s = .next t) : s.Effect t := by
  obtain ⟨u, hu, he⟩ := exec_effect i s
  obtain rfl : u = t := Host.Outcome.next.inj (hu.symm.trans h)
  exact he

end State

/-- Settles O1: `step` is this match. -/
theorem stepTakesTheFrontOfTheQueue : Obligations.StepTakesTheFrontOfTheQueue :=
  ⟨fun _ _ => rfl, fun s h => by rw [step, h]⟩

/-- Settles O38: the release stage and what is outside the two stages. -/
theorem backNIsWatchedInItsStage : Obligations.BackNIsWatchedInItsStage := by
  refine ⟨fun g a op s hp hs hop => ?release, fun s h => ?deasserted, fun bd s h => State.exec_beatAcknowledge_of_ne bd h⟩
  case release =>
    refine ⟨_, State.exec_beatRelease_of_release hp hs hop, rfl, ?_⟩
    cases hw : op.isWrite <;> simp [strobePins, hw] <;> rfl
  case deasserted =>
    exact State.exec_beatRelease_of_ne fun g a _ hp hs => absurd hs (h g a hp)

end Sys2Proof.Machine

end

/-! ### What each operation on the table leaves as it was -/

section

namespace Sys2Proof.Machine

namespace State

/-- From `s` to `t` nothing has changed but what the table engine works on: records, chains, the pool, the passes of the
scan engine, notice sets, slots and the backplane engine. -/
structure TableFrame (s t : State) : Prop where
  spi : t.spi = s.spi
  sdo : t.sdo = s.sdo
  pointer : t.pointer = s.pointer
  i2cAddr : t.i2cAddr = s.i2cAddr
  i2cWriteOpen : t.i2cWriteOpen = s.i2cWriteOpen
  run : t.scan.run = s.scan.run
  pendingFlags : t.scan.pendingFlags = s.scan.pendingFlags
  sweep : t.scan.sweep = s.scan.sweep
  sweepCursor : t.scan.sweepCursor = s.scan.sweepCursor
  req : t.scan.req = s.scan.req
  backAsserted : t.backAsserted = s.backAsserted
  lines : t.lines = s.lines
  mask : t.notify.mask = s.notify.mask
  type : t.notify.type = s.notify.type
  order : t.notify.order = s.notify.order
  orderErr : t.notify.orderErr = s.notify.orderErr
  notifyEn : t.notify.notifyEn = s.notify.notifyEn
  loader : t.loader = s.loader
  timebase : t.timebase = s.timebase
  pending : t.pending = s.pending

variable {s t u : State}

theorem TableFrame.refl (s : State) : s.TableFrame s :=
  ⟨rfl, rfl, rfl, rfl, rfl, rfl, rfl, rfl, rfl, rfl, rfl, rfl, rfl, rfl, rfl, rfl, rfl, rfl, rfl, rfl⟩

theorem TableFrame.trans (h : s.TableFrame t) (h' : t.TableFrame u) : s.TableFrame u := by
  cases h
  cases h'
  constructor <;> simp_all

theorem TableFrame.loading (h : s.TableFrame t) : t.loading = s.loading := by
  rw [State.loading, State.loading, h.loader]

theorem tableFrame_lastTaken (s : State) (r : Requester) : s.TableFrame { s with lastTaken := r } :=
  ⟨rfl, rfl, rfl, rfl, rfl, rfl, rfl, rfl, rfl, rfl, rfl, rfl, rfl, rfl, rfl, rfl, rfl, rfl, rfl, rfl⟩

theorem tableFrame_setPoint (s : State) (n : PointNo) (r : Point) : s.TableFrame (s.setPoint n r) := by
  constructor <;> rfl

theorem tableFrame_setCauses (s : State) (n : PointNo) (b : Byte) : s.TableFrame (s.setCauses n b) := by
  rw [setCauses_frame]
  constructor <;> rfl

theorem tableFrame_emptyCauses (s : State) (n : PointNo) : s.TableFrame (s.emptyCauses n) := s.tableFrame_setCauses n 0

theorem tableFrame_appendTo (s : State) (c : ClassSel) (n : PointNo) : s.TableFrame (s.appendTo c n) := by
  constructor <;> simp

theorem tableFrame_setClassState (s : State) (c : ClassNo) (x : ClassState) : s.TableFrame (s.setClassState c x) := by
  constructor <;> rfl

theorem tableFrame_cursorUnlink (s : State) (c : ClassSel) (n : PointNo) (k : Option PointNo) :
    s.TableFrame (s.cursorUnlink c n k) := by
  unfold cursorUnlink
  split
  · exact .refl s
  · dsimp only
    split_ifs
    · exact s.tableFrame_setClassState _ _
    · exact .refl s

theorem tableFrame_closeGap (s : State) (c : ClassSel) (n : PointNo) (k : Option PointNo) :
    s.TableFrame (s.closeGap c n k) := by
  constructor <;> simp

theorem tableFrame_unlinkFrom (s : State) (c : ClassSel) (n : PointNo) : s.TableFrame (s.unlinkFrom c n) :=
  ((s.tableFrame_closeGap c n _).trans (tableFrame_setPoint _ n _)).trans (tableFrame_cursorUnlink _ c n _)

theorem tableFrame_takeSegments (s : State) (k : Nat) : s.TableFrame (s.takeSegments k) := by
  rw [takeSegments_frame]
  constructor <;> rfl

theorem tableFrame_returnSegments (s : State) (gs : List SegNo) : s.TableFrame (s.returnSegments gs) := by
  constructor <;> rfl

theorem tableFrame_commitBlock (s : State) (r : Point) (ws : List Word) : s.TableFrame (s.commitBlock r ws) := by
  constructor <;> simp

theorem tableFrame_complete (s : State) (p : Port) (code : ResultCode) (a : Vector Word 64) :
    s.TableFrame (s.complete p code a) := by
  constructor <;> simp

theorem tableFrame_enterPhase (s : State) (p : Port) (ph : CmdPhase) : s.TableFrame (s.enterPhase p ph) := by
  constructor <;> simp

theorem tableFrame_requestAccess (s : State) (p : Port) (n : PointNo) (f : Bool) :
    s.TableFrame (s.requestAccess p n f) := by
  constructor <;> simp

theorem tableFrame_abandonAccess (s : State) (p : Port) : s.TableFrame (s.abandonAccess p) := by
  constructor <;> simp

theorem moveChain_of_eq {s : State} {n : PointNo} {c : ClassSel} (h : c = (s.point n).cls) : s.moveChain n c = s := by
  simp [moveChain, h]

theorem moveChain_of_ne {s : State} {n : PointNo} {c : ClassSel} (h : c ≠ (s.point n).cls) :
    s.moveChain n c = (s.unlinkFrom (s.point n).cls n).appendTo c n := by
  simp [moveChain, h]

theorem tableFrame_moveChain (s : State) (n : PointNo) (c : ClassSel) : s.TableFrame (s.moveChain n c) := by
  by_cases h : c = (s.point n).cls
  · rw [moveChain_of_eq h]
    exact .refl s
  · rw [moveChain_of_ne h]
    exact (s.tableFrame_unlinkFrom _ n).trans (tableFrame_appendTo _ c n)

theorem resizeSegments_grown {s : State} {n : PointNo} {len : Nat}
    (h : (s.point n).segments.length < segmentsFor len) :
    s.resizeSegments n len =
      (s.takeSegments (segmentsFor len - (s.point n).segments.length)).setPoint n { s.point n with
        segments := (s.point n).segments ++ s.freeSegs.take (segmentsFor len - (s.point n).segments.length) } := by
  simp [resizeSegments, h]

theorem resizeSegments_shrunk {s : State} {n : PointNo} {len : Nat}
    (h : ¬ (s.point n).segments.length < segmentsFor len) :
    s.resizeSegments n len =
      (s.returnSegments ((s.point n).segments.drop (segmentsFor len))).setPoint n { s.point n with
        segments := (s.point n).segments.take (segmentsFor len) } := by
  simp [resizeSegments, h]

theorem tableFrame_resizeSegments (s : State) (n : PointNo) (len : Nat) : s.TableFrame (s.resizeSegments n len) := by
  by_cases h : (s.point n).segments.length < segmentsFor len
  · rw [resizeSegments_grown h]
    exact (s.tableFrame_takeSegments _).trans (tableFrame_setPoint _ n _)
  · rw [resizeSegments_shrunk h]
    exact (s.tableFrame_returnSegments _).trans (tableFrame_setPoint _ n _)

theorem tableFrame_defineCore (s : State) (n : PointNo) (d : Definition) : s.TableFrame (s.defineCore n d) :=
  (((s.tableFrame_emptyCauses n).trans (tableFrame_takeSegments _ _)).trans (tableFrame_setPoint _ n _)).trans
    (tableFrame_appendTo _ d.cls n)

theorem tableFrame_modifyCore (s : State) (n : PointNo) (d : Definition) : s.TableFrame (s.modifyCore n d) :=
  ((((s.tableFrame_emptyCauses n).trans (tableFrame_moveChain _ n d.cls)).trans
    (tableFrame_resizeSegments _ n d.blockLen)).trans (tableFrame_setPoint _ n _)).trans (tableFrame_commitBlock _ _ [])

theorem tableFrame_freePoint (s : State) (n : PointNo) : s.TableFrame (s.freePoint n) :=
  ((s.tableFrame_emptyCauses n).trans (tableFrame_returnSegments _ _)).trans (tableFrame_setPoint _ n _)

theorem tableFrame_retireWaiter (s : State) (n : PointNo) (p : Port) : s.TableFrame (s.retireWaiter n p) := by
  unfold retireWaiter
  split
  · split_ifs
    · exact (s.tableFrame_abandonAccess p).trans (tableFrame_complete _ p _ _)
    · exact .refl s
  · exact .refl s

/-- The part of a retirement that concerns the table: the point leaves its chain, its causes are emptied, and it becomes
FREE or RETIRING (R11, R12). -/
def retireRecord (s : State) (n : PointNo) : State :=
  let s := (s.unlinkFrom (s.point n).cls n).emptyCauses n
  if (s.point n).inFlight = .none then s.freePoint n
  else s.setPoint n { s.point n with state := .retiring, holder := none, writeAgain := false }

theorem retirePoint_eq (s : State) (n : PointNo) :
    s.retirePoint n = ((s.retireRecord n).retireWaiter n .primary).retireWaiter n .maint := rfl

theorem tableFrame_retireRecord (s : State) (n : PointNo) : s.TableFrame (s.retireRecord n) := by
  have hleft := (s.tableFrame_unlinkFrom (s.point n).cls n).trans (tableFrame_emptyCauses _ n)
  unfold retireRecord
  extract_lets u
  split_ifs
  · exact hleft.trans (tableFrame_freePoint _ n)
  · exact hleft.trans (tableFrame_setPoint _ n _)

theorem tableFrame_retirePoint (s : State) (n : PointNo) : s.TableFrame (s.retirePoint n) :=
  ((s.tableFrame_retireRecord n).trans (tableFrame_retireWaiter _ n .primary)).trans (tableFrame_retireWaiter _ n .maint)

theorem tableFrame_foldl_retirePoint (ns : List PointNo) (s : State) : s.TableFrame (ns.foldl retirePoint s) := by
  induction ns generalizing s with
  | nil => exact .refl s
  | cons n ns ih => exact (s.tableFrame_retirePoint n).trans (ih _)

end State

end Sys2Proof.Machine

end

/-! ### What the commands and the engines leave as it was -/

section

namespace Sys2Proof.Machine

namespace State

variable {s t : State}

/-! #### Commands -/

theorem tableFrame_completeZero (s : State) (p : Port) (code : ResultCode) : s.TableFrame (s.completeZero p code) :=
  s.tableFrame_complete p code _

theorem tableFrame_completeSnapshot (s : State) (p : Port) (code : ResultCode) (n : PointNo) :
    s.TableFrame (s.completeSnapshot p code n) :=
  s.tableFrame_complete p code _

theorem tableFrame_takeDefine (p : Port) (c : Command) (s : State) : s.TableFrame (takeDefine p c s) := by
  unfold takeDefine
  dsimp only
  split_ifs
  · split
    · exact (s.tableFrame_defineCore _ _).trans (tableFrame_completeSnapshot _ p _ _)
    · exact s.tableFrame_completeZero p _
  · exact s.tableFrame_completeZero p _

theorem tableFrame_takeModify (p : Port) (c : Command) (s : State) : s.TableFrame (takeModify p c s) := by
  unfold takeModify
  dsimp only
  split
  · exact s.tableFrame_completeZero p _
  · split
    · exact (s.tableFrame_modifyCore _ _).trans (tableFrame_completeSnapshot _ p _ _)
    · exact s.tableFrame_completeZero p _

theorem tableFrame_takeRetire (p : Port) (c : Command) (s : State) : s.TableFrame (takeRetire p c s) := by
  unfold takeRetire
  dsimp only
  split
  · exact s.tableFrame_completeZero p _
  · split_ifs
    · exact (s.tableFrame_retirePoint _).trans (tableFrame_complete _ p _ _)
    · exact (s.tableFrame_retirePoint _).trans (tableFrame_enterPhase _ p _)

theorem tableFrame_takeHolder (h : Option Port) (p : Port) (c : Command) (s : State) :
    s.TableFrame (takeHolder h p c s) := by
  unfold takeHolder
  split
  · exact s.tableFrame_completeZero p _
  · exact (s.tableFrame_setPoint _ _).trans (tableFrame_completeSnapshot _ p _ _)

theorem tableFrame_takeReadNow (p : Port) (c : Command) (s : State) : s.TableFrame (takeReadNow p c s) := by
  unfold takeReadNow
  dsimp only
  split
  · exact s.tableFrame_completeZero p _
  · split_ifs
    · exact s.tableFrame_requestAccess p _ _
    · exact s.tableFrame_enterPhase p _

theorem tableFrame_awaitWrite (s : State) (p : Port) (n : PointNo) : s.TableFrame (s.awaitWrite p n) := by
  unfold awaitWrite
  dsimp only
  split_ifs
  · exact s.tableFrame_requestAccess p _ _
  · exact s.tableFrame_enterPhase p _
  · exact (s.tableFrame_setPoint n _).trans (tableFrame_enterPhase _ p _)

theorem tableFrame_takeWrite (p : Port) (c : Command) (s : State) : s.TableFrame (takeWrite p c s) := by
  unfold takeWrite
  dsimp only
  split_ifs
  · exact s.tableFrame_completeZero p _
  · exact s.tableFrame_completeZero p _
  · exact s.tableFrame_completeZero p _
  · exact s.tableFrame_completeZero p _
  · exact (s.tableFrame_setPoint _ _).trans (tableFrame_awaitWrite _ p _)

/-- An accepted region record is stored whole (R51, R119). -/
theorem storeRegion_ok {p : Port} {num : Nat} {g : Region} (h : s.storeRegion p num g = .ok t) :
    ∃ r : RegionNo, r.val = num ∧ t = s.setRegion r g := by
  unfold storeRegion at h
  split_ifs at h with hr
  exact ⟨⟨num, hr⟩, rfl, (Except.ok.inj h).symm⟩

theorem tableFrame_setRegion (s : State) (r : RegionNo) (g : Region) : s.TableFrame (s.setRegion r g) := by
  constructor <;> rfl

theorem tableFrame_takeSetRegion (p : Port) (c : Command) (s : State) : s.TableFrame (takeSetRegion p c s) := by
  unfold takeSetRegion
  split
  next s' hs' =>
    obtain ⟨r, -, rfl⟩ := storeRegion_ok hs'
    exact (s.tableFrame_setRegion r _).trans (tableFrame_complete _ p _ _)
  next => exact s.tableFrame_completeZero p _

theorem tableFrame_takeGetRegion (p : Port) (c : Command) (s : State) : s.TableFrame (takeGetRegion p c s) := by
  unfold takeGetRegion
  split_ifs
  · exact s.tableFrame_complete p _ _
  · exact s.tableFrame_completeZero p _

theorem tableFrame_restartClass (s : State) (c : ClassNo) (w : Word) : s.TableFrame (s.restartClass c w) := by
  constructor <;> rfl

theorem tableFrame_takeSetClass (p : Port) (c : Command) (s : State) : s.TableFrame (takeSetClass p c s) := by
  unfold takeSetClass
  split_ifs
  · exact (s.tableFrame_restartClass _ _).trans (tableFrame_complete _ p _ _)
  · exact s.tableFrame_completeZero p _

theorem tableFrame_takeGetClass (p : Port) (c : Command) (s : State) : s.TableFrame (takeGetClass p c s) := by
  unfold takeGetClass
  split
  · exact s.tableFrame_complete p _ _
  · exact s.tableFrame_completeZero p _

theorem tableFrame_takeClearAll (p : Port) (c : Command) (s : State) : s.TableFrame (takeClearAll p c s) := by
  unfold takeClearAll
  dsimp only
  split_ifs
  · exact s.tableFrame_completeZero p _
  · split
    · exact (tableFrame_foldl_retirePoint _ s).trans (tableFrame_enterPhase _ p _)
    · exact (tableFrame_foldl_retirePoint _ s).trans (tableFrame_complete _ p _ _)

/-- A command changes nothing outside what the table engine works on. -/
theorem tableFrame_commandAct (name : CmdName) (p : Port) (c : Command) (s : State) :
    s.TableFrame (commandAct name p c s) := by
  cases name with
  | define => exact tableFrame_takeDefine p c s
  | modify => exact tableFrame_takeModify p c s
  | retire => exact tableFrame_takeRetire p c s
  | hold => exact tableFrame_takeHolder (some p) p c s
  | release => exact tableFrame_takeHolder none p c s
  | read => exact s.tableFrame_completeSnapshot p _ _
  | readNow => exact tableFrame_takeReadNow p c s
  | write => exact tableFrame_takeWrite p c s
  | setRegion => exact tableFrame_takeSetRegion p c s
  | getRegion => exact tableFrame_takeGetRegion p c s
  | setClass => exact tableFrame_takeSetClass p c s
  | getClass => exact tableFrame_takeGetClass p c s
  | clearAll => exact tableFrame_takeClearAll p c s
  | dismiss => exact .refl s
  | unknown => exact s.tableFrame_completeZero p _

/-- A command carried out in its turn changes nothing outside what the table engine works on. -/
theorem NextCommand.tableFrame {name : CmdName} {p : Port} {c : Command} (_ : s.NextCommand p name c) :
    s.TableFrame (commandAct name p c { s with lastTaken := .slot p }) :=
  (s.tableFrame_lastTaken _).trans (tableFrame_commandAct name p c _)

/-! #### Completions -/

theorem tableFrame_busIdle (s : State) : s.TableFrame s.busIdle := by
  constructor <;> simp

/-- A command in WAIT_FREE for the point completes OK (R37, R38). -/
theorem finishWaitFree_of_waits {n : PointNo} {p : Port} {c : Command} {k : Nat} (h : s.busyWith p = some c)
    (hp : c.phase = .waitFree n k) : s.finishWaitFree n p =
      s.complete p .ok (if CmdName.ofCode c.code = .clearAll then clearAllArea k 1 else zeroArea) := by
  simp only [finishWaitFree, h, hp, if_true]

/-- Any other command stays as it is. -/
theorem finishWaitFree_of_ne {n : PointNo} {p : Port}
    (h : ∀ c k, s.busyWith p = some c → c.phase ≠ .waitFree n k) : s.finishWaitFree n p = s := by
  unfold finishWaitFree
  split
  next c hc =>
    split
    next q k hq =>
      have hne : q ≠ n := fun e => h c k hc (e ▸ hq)
      rw [if_neg hne]
    all_goals rfl
  next => rfl

theorem tableFrame_finishWaitFree (s : State) (n : PointNo) (p : Port) : s.TableFrame (s.finishWaitFree n p) := by
  by_cases h : ∀ c k, s.busyWith p = some c → c.phase ≠ .waitFree n k
  · rw [finishWaitFree_of_ne h]
    exact .refl s
  · push Not at h
    obtain ⟨c, k, hc, hk⟩ := h
    rw [finishWaitFree_of_waits hc hk]
    exact s.tableFrame_complete p _ _

theorem tableFrame_completeRetiring (s : State) (n : PointNo) : s.TableFrame (s.completeRetiring n) :=
  ((s.tableFrame_freePoint n).trans (tableFrame_finishWaitFree _ n _)).trans (tableFrame_finishWaitFree _ n _)

theorem tableFrame_afterDiscard (g : Grant) (owed : Bool) (s : State) (p : Port) :
    s.TableFrame (afterDiscard g owed s p) := by
  unfold afterDiscard
  dsimp only
  split_ifs
  · exact s.tableFrame_completeSnapshot p _ _
  · exact s.tableFrame_requestAccess p _ _
  · exact s.tableFrame_enterPhase p _
  · exact s.tableFrame_requestAccess p _ _
  · exact .refl s

theorem tableFrame_discardCompletion (s : State) (g : Grant) : s.TableFrame (s.discardCompletion g) :=
  ((s.tableFrame_setPoint g.point _).trans (tableFrame_afterDiscard g _ _ _)).trans (tableFrame_afterDiscard g _ _ _)

theorem tableFrame_afterCounted (g : Grant) (o : Outcome) (owed shared : Bool) (s : State) (p : Port) :
    s.TableFrame (afterCounted g o owed shared s p) := by
  unfold afterCounted
  dsimp only
  split_ifs
  · exact s.tableFrame_completeSnapshot p _ _
  · exact s.tableFrame_requestAccess p _ _
  · exact s.tableFrame_requestAccess p _ _
  · exact .refl s

theorem tableFrame_afterJudging (s : State) (n : PointNo) (c : Completion) : s.TableFrame (s.afterJudging n c) := by
  rw [afterJudging_frame]
  constructor <;> rfl

theorem tableFrame_countCompletion (s : State) (g : Grant) (c : Completion) : s.TableFrame (s.countCompletion g c) := by
  rw [countCompletion_eq]
  exact ((s.tableFrame_afterJudging g.point c).trans (tableFrame_afterCounted g _ _ _ _ _)).trans
    (tableFrame_afterCounted g _ _ _ _ _)

/-- A completion changes nothing outside what the table engine works on. -/
theorem tableFrame_takeCompletion (s : State) (g : Grant) (c : Completion) : s.TableFrame (s.takeCompletion g c) := by
  unfold takeCompletion
  dsimp only
  split_ifs
  · exact (s.tableFrame_completeRetiring _).trans (tableFrame_busIdle _)
  · exact (s.tableFrame_discardCompletion g).trans (tableFrame_busIdle _)
  · exact (s.tableFrame_countCompletion g c).trans (tableFrame_busIdle _)

/-! #### Accesses -/

/-- From `s` to `t` only the backplane engine has changed. -/
def BusOnly (s t : State) : Prop := t = { s with bus := t.bus }

theorem BusOnly.trans {u : State} (h : s.BusOnly t) (h' : t.BusOnly u) : s.BusOnly u := by
  unfold BusOnly at *
  rw [h', h]

theorem busOnly_reportAccess (s : State) (g : Grant) (a : Access) (o : Outcome) : s.BusOnly (s.reportAccess g a o) := rfl

theorem busOnly_nextBeat (s : State) (g : Grant) (a : Access) : s.BusOnly (s.nextBeat g a) := by
  unfold BusOnly
  rw [nextBeat_frame]

theorem busOnly_endBeat (s : State) (g : Grant) (a : Access) (bd : Word) : s.BusOnly (s.endBeat g a bd) := by
  unfold BusOnly
  rw [endBeat_frame]

theorem busOnly_busIdle (s : State) : s.BusOnly s.busIdle := by
  obtain ⟨b, hb⟩ := s.busIdle_eq
  unfold BusOnly
  rw [hb]

theorem busOnly_placeRequest (s : State) (r : Requester) (n : PointNo) (f : Bool) :
    s.BusOnly (s.placeRequest r n f) := by
  obtain ⟨b, hb⟩ := (s.setEntry r (some ⟨n, f⟩)).grantNext_eq
  unfold BusOnly
  rw [placeRequest, hb]
  rcases r with _ | (_ | _) <;> rfl

theorem pending_takeStart (s : State) (g : Grant) : (s.takeStart g).pending = s.pending := by
  have htold : ∀ u : State, (u.tellStarted g).pending = u.pending := fun u => by
    unfold tellStarted
    split
    · rfl
    · split_ifs <;> simp
  unfold takeStart
  dsimp only
  split_ifs
  · rw [busOnly_busIdle]
    unfold tellWithdrawn
    split <;> rfl
  · exact htold _
  · exact htold _
  · rw [busOnly_nextBeat]
    exact htold _

/-! #### The scan engine and the timebase -/

theorem takeExpiry_eq (s : State) (c : ClassNo) :
    ∃ x, s.takeExpiry c = s.setClassState c x := by
  unfold takeExpiry
  dsimp only
  split_ifs
  · exact ⟨_, rfl⟩
  · split <;> exact ⟨_, rfl⟩

/-- From `s` to `t` only timebase, classes and the phase of the backplane engine have changed. -/
def ClockOnly (s t : State) : Prop := t = { s with
  timebase := t.timebase, scan := { s.scan with classes := t.scan.classes }, bus := { s.bus with phase := t.bus.phase } }

theorem ClockOnly.refl (s : State) : s.ClockOnly s := rfl

theorem ClockOnly.trans {u : State} (h : s.ClockOnly t) (h' : t.ClockOnly u) : s.ClockOnly u := by
  unfold ClockOnly at *
  rw [h', h]

theorem clockOnly_setClassState (s : State) (c : ClassNo) (x : ClassState) : s.ClockOnly (s.setClassState c x) := rfl

theorem clockOnly_takeExpiry (s : State) (c : ClassNo) : s.ClockOnly (s.takeExpiry c) := by
  obtain ⟨x, hx⟩ := s.takeExpiry_eq c
  rw [hx]
  exact s.clockOnly_setClassState c x

theorem clockOnly_countDown (s : State) (c : ClassNo) : s.ClockOnly (s.countDown c) := by
  unfold countDown
  dsimp only
  split_ifs
  · exact (s.clockOnly_takeExpiry c).trans (clockOnly_setClassState _ c _)
  · exact s.clockOnly_setClassState c _
  · exact .refl s

theorem clockOnly_mapAccess (s : State) (f : Access → Access) : s.ClockOnly (s.mapAccess f) := by
  unfold mapAccess
  split <;> rfl

theorem clockOnly_millisecondTick (s : State) : s.ClockOnly s.millisecondTick :=
  (((s.clockOnly_countDown 0).trans (clockOnly_countDown _ 1)).trans (clockOnly_countDown _ 2)).trans
    (clockOnly_countDown _ 3)

theorem clockOnly_timebase (s : State) (x : Timebase) : s.ClockOnly { s with timebase := x } := rfl

theorem clockOnly_microsecondTick (s : State) : s.ClockOnly s.microsecondTick := by
  unfold microsecondTick
  dsimp only
  split_ifs
  · exact (s.clockOnly_mapAccess _).trans (clockOnly_timebase _ _)
  · exact ((s.clockOnly_mapAccess _).trans (clockOnly_timebase _ _)).trans (clockOnly_millisecondTick _)

theorem clockOnly_clkPeriod (s : State) : s.ClockOnly s.clkPeriod := by
  unfold clkPeriod
  dsimp only
  split_ifs
  · exact (s.clockOnly_mapAccess _).trans (clockOnly_timebase _ _)
  · exact ((s.clockOnly_mapAccess _).trans (clockOnly_timebase _ _)).trans (clockOnly_microsecondTick _)

theorem clockOnly_runClk (n : Nat) (s : State) : s.ClockOnly (runClk n s) := by
  induction n generalizing s with
  | zero => exact .refl s
  | succ n ih => exact s.clockOnly_clkPeriod.trans (ih _)

theorem pending_rule (s : State) (n : PointNo) : (s.rule n).pending = s.pending := by
  unfold rule
  dsimp only
  split_ifs
  · rfl
  · rfl
  · rw [busOnly_placeRequest]

theorem pending_takeVisit (s : State) (w : ScanWork) : (s.takeVisit w).pending = s.pending := by
  cases w with
  | pass c =>
    show (s.visitPass c).pending = _
    unfold visitPass
    split
    · rfl
    · exact s.pending_rule _
  | sweep r =>
    show (s.visitSweep r).pending = _
    unfold visitSweep
    split
    · rfl
    · exact s.pending_rule _

theorem pending_chooseWork (s : State) : s.chooseWork.pending = s.pending := by
  unfold chooseWork
  split
  · rfl
  · split
    · rfl
    · split <;> rfl

end State

end Sys2Proof.Machine

end

/-! ### What register writes and the loader leave as they were -/

section

namespace Sys2Proof.Machine

namespace State

variable {s t : State} {p : Port}

/-! #### Register writes -/

/-- The state `s` goes to, by a register write of port `p`: one case per kind of register. -/
inductive Written (s : State) (p : Port) : State → Prop
  | ignored : Written s p s
  | port (x : PortState) : Written s p (s.setPort p x)
  | status (w : Word) : Written s p (writeStatus p w s)
  | control (w : Word) : Written s p (writeControl p w s)
  | levels (mask type : Byte) : Written s p { s with notify := { s.notify with mask := mask, type := type } }
  | order (lo hi : Word) : Written s p (s.installOrder lo hi)
  | ack (w : Word) : Written s p (writeAck w s)
  | lines (ls : Vector Line 8) (fs : Vector Bool 8) :
      Written s p { s with lines := ls, scan := { s.scan with pendingFlags := fs } }
  | overruns (w : Word) : Written s p (writeClassState w s)

theorem keepFlag_scan (s : State) (l : LineNo) :
    ∃ fs, s.keepFlag l = { s with scan := { s.scan with pendingFlags := fs } } := by
  rw [keepFlag_eq]
  split_ifs <;> exact ⟨_, rfl⟩

theorem configureLine_eq (s : State) (l : LineNo) (f : Byte) :
    ∃ ls fs, s.configureLine l f = { s with lines := ls, scan := { s.scan with pendingFlags := fs } } := by
  unfold configureLine
  split_ifs
  · obtain ⟨fs, h⟩ := (s.setLine l ((s.line l).configured f)).keepFlag_scan l
    exact ⟨_, fs, h⟩
  · exact ⟨_, _, rfl⟩

theorem written_writeCmd (s : State) (p : Port) (w : Word) : s.Written p (writeCmd p w s) := by
  unfold writeCmd
  split
  · exact .port _
  all_goals split_ifs <;> exact .port _

theorem written_writeAttnConfig (s : State) (p : Port) (n : Fin 4) (w : Word) :
    s.Written p (writeAttnConfig n w s) := by
  obtain ⟨ls, fs, h⟩ := s.configureLine_eq (lowLine n) (loByte w)
  obtain ⟨ls', fs', h'⟩ := (s.configureLine (lowLine n) (loByte w)).configureLine_eq (highLine n) (hiByte w)
  rw [writeAttnConfig, h', h]
  exact .lines ls' fs'

/-- Every register write is one of these. -/
theorem written_writeAny (s : State) (p : Port) (addr : BitVec 7) (w : Word) : s.Written p (writeAny p addr w s) := by
  unfold writeAny
  split
  · exact .status w
  · exact .control w
  · exact s.written_writeCmd p w
  · exact .port _
  · exact .port _
  · exact .levels _ _
  · exact .levels _ _
  · exact .port _
  · exact .order _ _
  · exact .ack w
  · exact .port _
  · exact s.written_writeAttnConfig p 0 w
  · exact s.written_writeAttnConfig p 1 w
  · exact s.written_writeAttnConfig p 2 w
  · exact s.written_writeAttnConfig p 3 w
  · exact .lines _ s.scan.pendingFlags
  · exact .overruns w
  · exact .ignored

/-! #### CONTROL and the warm reset -/

theorem writeScanRun_set (s : State) : s.writeScanRun true = { s with scan := { s.scan with run := true } } := rfl

theorem writeScanRun_idle (h : s.scan.run = false) : s.writeScanRun false = s := by
  simp [writeScanRun, h]

theorem writeScanRun_clear (h : s.scan.run = true) : s.writeScanRun false =
    { s.endWork.withdrawScan with scan := { s.endWork.withdrawScan.scan with run := false } } := by
  simp [writeScanRun, h]

/-- Withdrawing touches the request state and the scan engine's entry only (R73, R124). -/
theorem withdrawScan_eq (s : State) : ∃ q e, s.withdrawScan = { s with
    scan := { s.scan with req := q }, bus := { s.bus with entries := { s.bus.entries with scan := e } } } := by
  unfold withdrawScan
  split
  · exact ⟨_, _, rfl⟩
  · exact ⟨_, _, rfl⟩
  · split
    · exact ⟨_, _, rfl⟩
    · exact ⟨_, _, rfl⟩

theorem writeScanRun_eq (s : State) (on : Bool) : ∃ x e, s.writeScanRun on = { s with
    scan := x, bus := { s.bus with entries := { s.bus.entries with scan := e } } } := by
  cases on with
  | true => exact ⟨_, _, s.writeScanRun_set⟩
  | false =>
    cases hr : s.scan.run with
    | false => exact ⟨_, _, writeScanRun_idle hr⟩
    | true =>
      obtain ⟨q, e, h⟩ := s.endWork.withdrawScan_eq
      rw [writeScanRun_clear hr, h]
      exact ⟨_, e, rfl⟩

/-- The segments of RETIRING points return to the pool (R13): the first part of a warm reset. -/
def returnRetiring (s : State) : State :=
  s.points.toList.foldl (fun t r => if r.state = .retiring then t.returnSegments r.segments else t) s

theorem foldl_returnRetiring_eq (rs : List Point) (s : State) :
    ∃ fs, rs.foldl (fun t r => if r.state = .retiring then t.returnSegments r.segments else t) s =
      { s with freeSegs := fs } := by
  induction rs generalizing s with
  | nil => exact ⟨_, rfl⟩
  | cons r rs ih =>
    rw [List.foldl_cons]
    split_ifs
    · obtain ⟨fs, h⟩ := ih (s.returnSegments r.segments)
      exact ⟨fs, h⟩
    · exact ih s

/-- The warm reset as one update (R13, R50, R75, R138, R139, R162). -/
theorem warmReset_eq (s : State) : s.warmReset = { s with
    points := mapAll Point.warm s.points, freeSegs := s.returnRetiring.freeSegs, lastTaken := .scan
    primary := s.primary.warm, maint := s.maint.warm, scan := s.scan.warm, bus := s.bus.warm
    notify := { s.notify with sets := Vector.replicate 8 [] } } := by
  obtain ⟨fs, h⟩ := foldl_returnRetiring_eq s.points.toList s
  unfold warmReset returnRetiring
  rw [h]

/-- A CONTROL write that is no warm reset. -/
def applyControl (s : State) (p : Port) (w : Word) : State :=
  ((s.writeScanRun (flag w 0)).writeNotifyEn (flag w 1)).setPort p { s.port p with doneInt := flag w 2 }

theorem writeControl_of_not_warm {w : Word} (h : ¬ (p = .primary ∧ flag w 15 = true)) :
    writeControl p w s = s.applyControl p w := by
  obtain ⟨x, e, hx⟩ := s.writeScanRun_eq (flag w 0)
  unfold writeControl applyControl
  rw [if_neg h, hx]
  cases p <;> rfl

theorem writeControl_of_warm {w : Word} (h : p = .primary ∧ flag w 15 = true) : writeControl p w s = s.warmReset := by
  rw [writeControl, if_pos h]

theorem applyControl_eq (s : State) (p : Port) (w : Word) : ∃ x e n y z, s.applyControl p w = { s with
    scan := x, bus := { s.bus with entries := { s.bus.entries with scan := e } }
    notify := { s.notify with notifyEn := n }, primary := y, maint := z } := by
  obtain ⟨x, e, hx⟩ := s.writeScanRun_eq (flag w 0)
  unfold applyControl
  rw [hx]
  cases p <;> exact ⟨x, e, _, _, _, rfl⟩

theorem writeStatus_eq (s : State) (p : Port) (w : Word) : ∃ e y z, writeStatus p w s = { s with
    notify := { s.notify with orderErr := e }, primary := y, maint := z } := by
  unfold writeStatus
  dsimp only
  cases p <;> split_ifs <;> exact ⟨_, _, _, rfl⟩

theorem installOrder_eq (s : State) (lo hi : Word) : ∃ o e, s.installOrder lo hi = { s with
    notify := { s.notify with order := o, orderErr := e } } := by
  unfold installOrder
  split_ifs <;> exact ⟨_, _, rfl⟩

/-! #### The loader -/

theorem takeVerdict_eq (s : State) (v : Verdict) : ∃ l x, s.takeVerdict v = { s with lastTaken := l, loader := x } := by
  cases v <;> exact ⟨_, _, rfl⟩

/-- From `s` to `t` only what the scan engine holds for the classes has changed. -/
def ClassesOnly (s t : State) : Prop := t = { s with scan := { s.scan with classes := t.scan.classes } }

theorem ClassesOnly.trans {u : State} (h : s.ClassesOnly t) (h' : t.ClassesOnly u) : s.ClassesOnly u := by
  unfold ClassesOnly at *
  rw [h', h]

theorem classesOnly_restartClass (s : State) (c : ClassNo) (w : Word) : s.ClassesOnly (s.restartClass c w) := rfl

/-- The header's periods, as SET_CLASS sets them (R180). -/
def restartClasses (s : State) (w : Nat → Word) : State :=
  (((s.restartClass 0 (w 5)).restartClass 1 (w 6)).restartClass 2 (w 7)).restartClass 3 (w 8)

theorem classesOnly_restartClasses (s : State) (w : Nat → Word) : s.ClassesOnly (s.restartClasses w) :=
  (((s.classesOnly_restartClass 0 _).trans (classesOnly_restartClass _ 1 _)).trans
    (classesOnly_restartClass _ 2 _)).trans (classesOnly_restartClass _ 3 _)

/-- The header's level controls, before the order is judged (R180). -/
def headerNotify (x : Notify) (w : Nat → Word) : Notify :=
  { x with mask := loByte (w 9), type := hiByte (w 9), order := Notify.orderReset }

/-- The header's periods and level controls. -/
def headerLevels (s : State) (w : Nat → Word) : State :=
  { s.restartClasses w with notify := headerNotify (s.restartClasses w).notify w }

theorem headerLevels_eq (s : State) (w : Nat → Word) : s.headerLevels w = { s with
    scan := { s.scan with classes := (s.restartClasses w).scan.classes }, notify := headerNotify s.notify w } := by
  rw [headerLevels, s.classesOnly_restartClasses w]

/-- The start flags, kept as the header is applied (R180). -/
def keepStartFlags (s : State) (w : Word) : State :=
  { s with loader := { s.loader with headerDone := true, startScanRun := flag w 0, startNotifyEn := flag w 1 } }

/-- The header in its parts (R180). -/
theorem applyHeader_parts (s : State) (ws : List Word) : s.applyHeader ws =
    ((s.headerLevels fun i => ws.getD i 0).installOrder (ws.getD 10 0) (ws.getD 11 0)).keepStartFlags (ws.getD 4 0) :=
  rfl

theorem applyHeader_eq (s : State) (ws : List Word) : ∃ xs m y o e l, s.applyHeader ws = { s with
    scan := { s.scan with classes := xs }, notify := { s.notify with mask := m, type := y, order := o, orderErr := e }
    loader := l } := by
  obtain ⟨o, e, h⟩ := (s.headerLevels fun i => ws.getD i 0).installOrder_eq (ws.getD 10 0) (ws.getD 11 0)
  rw [applyHeader_parts, h, headerLevels_eq]
  exact ⟨_, _, _, _, _, _, rfl⟩

theorem applyRegionRecord_eq (s : State) (ws : List Word) : ∃ rs l, s.applyRegionRecord ws = { s with
    bus := { s.bus with regions := rs }, loader := l } := by
  unfold applyRegionRecord
  dsimp only
  split
  next u hu =>
    obtain ⟨r, -, rfl⟩ := storeRegion_ok hu
    exact ⟨_, _, rfl⟩
  next => exact ⟨_, _, rfl⟩

/-- A point record is refused or applied as a DEFINE of a FREE point (R180). -/
theorem applyPointRecord_cases (s : State) (ws : List Word) :
    (∃ l, s.applyPointRecord ws = { s with loader := l }) ∨
    ∃ n d l raw, (s.point n).state = .free ∧ s.checkDefinition raw none 0 = .ok d ∧
      s.applyPointRecord ws = { s.defineCore n d with loader := l } := by
  unfold applyPointRecord
  dsimp only
  split_ifs with hfree
  · split
    next d hd => exact .inr ⟨_, d, _, _, hfree, hd, rfl⟩
    next => exact .inl ⟨_, rfl⟩
  · exact .inl ⟨_, rfl⟩

theorem completeLoading_eq (s : State) : ∃ x e n l, s.completeLoading = { s with
    lastTaken := .scan, scan := x, bus := { s.bus with entries := { s.bus.entries with scan := e } }
    notify := { s.notify with notifyEn := n }, loader := l } := by
  obtain ⟨x, e, h⟩ := s.endLoading.writeScanRun_eq s.loader.startScanRun
  unfold completeLoading
  dsimp only
  rw [h]
  exact ⟨_, _, _, _, rfl⟩

/-! #### The queue (log 1) -/

theorem pending_written {t : State} (h : s.Written p t) : t.pending = s.pending := by
  cases h with
  | ignored => rfl
  | port x => simp
  | status w =>
    obtain ⟨_, _, _, h⟩ := s.writeStatus_eq p w
    rw [h]
  | control w =>
    by_cases hw : p = .primary ∧ flag w 15 = true
    · rw [writeControl_of_warm hw, warmReset_eq]
    · obtain ⟨_, _, _, _, _, h⟩ := s.applyControl_eq p w
      rw [writeControl_of_not_warm hw, h]
  | levels => rfl
  | order lo hi =>
    obtain ⟨_, _, h⟩ := s.installOrder_eq lo hi
    rw [h]
  | ack w => exact (s.tableFrame_setCauses _ _).pending
  | lines => rfl
  | overruns => rfl

theorem pending_takeAtn (l : LineNo) (high : Bool) (s : State) : (takeAtn l high s).pending = s.pending := by
  have hkeep : ∀ u : State, (u.keepFlag l).pending = u.pending := fun u => by
    obtain ⟨_, h⟩ := u.keepFlag_scan l
    rw [h]
  unfold takeAtn
  dsimp only
  split_ifs
  · rfl
  · rfl
  · rfl
  · rw [hkeep]
    exact hkeep s

theorem pending_closeWrite (s : State) (v : Via) : (s.closeWrite v).pending = s.pending := by cases v <;> rfl

theorem pending_takeClaim (p : Port) (s : State) : (takeClaim p s).2.pending = s.pending := by
  unfold takeClaim
  split
  · dsimp only
    split_ifs
    · simp [latchClaim]
    · simp [latchClaim]
  · simp [latchClaim]

/-- No event touches the queue behind it. -/
theorem Effect.pending (h : s.Effect t) : t.pending = s.pending := by
  cases h with
  | nothing => rfl
  | command p name c h => exact h.tableFrame.pending
  | start g => exact s.pending_takeStart g
  | backN => rfl
  | beatReleased => rfl
  | beatEnded _ g a bd => rw [busOnly_endBeat]
  | timeout => rfl
  | completion g c => exact (s.tableFrame_takeCompletion g c).pending
  | clk n => rw [clockOnly_runClk n s]
  | expiry c => rw [s.clockOnly_takeExpiry c]
  | choice => exact s.pending_chooseWork
  | visit w => exact pending_takeVisit _ w
  | atn l high => exact pending_takeAtn l high s
  | flagSetAgain l =>
    obtain ⟨_, h⟩ := s.keepFlag_scan l
    rw [h]
  | write p addr w => exact pending_written (s.written_writeAny p addr w)
  | readHeld v => simp [pending_closeWrite]
  | claim v => simp [pending_takeClaim, pending_closeWrite]
  | blkDataRead v => simp [readBlkData, pending_closeWrite]
  | commandByte b =>
    unfold takeCommandByte
    split <;> rfl
  | transferEnd => rfl
  | pointer =>
    unfold takePointer
    split_ifs <;> rfl
  | coldReset => rfl
  | verdict v =>
    obtain ⟨_, _, h⟩ := s.takeVerdict_eq v
    rw [h]
  | undone => rfl
  | header ws =>
    obtain ⟨_, _, _, _, _, _, h⟩ := (s.addSum ws).applyHeader_eq ws
    rw [h]
    rfl
  | regionRecord ws =>
    obtain ⟨_, _, h⟩ := (s.addSum ws).applyRegionRecord_eq ws
    rw [h]
    rfl
  | pointRecord ws =>
    obtain ⟨_, h⟩ | ⟨n, d, _, _, -, -, h⟩ := (s.addSum ws).applyPointRecord_cases ws
    · rw [h]
      rfl
    · rw [h]
      exact (tableFrame_defineCore _ n d).pending
  | checksum ws =>
    unfold judgeSum
    split_ifs
    · obtain ⟨_, _, _, _, h⟩ := (s.addSum ws).completeLoading_eq
      rw [h]
      rfl
    · rfl

end State

/-- Settles O2: the effects of the model's events are the cases of `Effect`, and none of them touches the queue. -/
theorem everyEventLeadsToANextState : Obligations.EveryEventLeadsToANextState := by
  intro i s
  obtain ⟨t, ht, he⟩ := State.exec_effect i s
  exact ⟨t, ht, he.pending⟩

end Sys2Proof.Machine

end

/-! ### The standing facts of the table, in the shape in which the operations keep them -/

section

namespace Sys2Proof.Machine

/-- What the rules say of one record by itself: out of use it is quiet (R2, R6, R12, R23), in use its health agrees with
its counters (R9), its flags agree with IN_FLIGHT (R26), and SEGMENTS with BLOCK_LEN (R1, R104). -/
structure Point.InOrder (r : Point) : Prop where
  free : r.state = .free → r = Point.free
  retiring : r.state = .retiring → r.causes = 0 ∧ r.holder = none ∧ r.writeAgain = false
  health : r.state.isDefined = true →
    1 ≤ r.staleAt ∧ r.staleAt ≤ r.faultAt ∧ r.fails ≤ r.faultAt ∧ (r.state = .faulted ↔ r.fails = r.faultAt) ∧
    (r.state = .stale ↔ r.staleAt ≤ r.fails ∧ r.fails < r.faultAt) ∧ r.probe ≤ 7
  flight : (r.state = .retiring → r.inFlight ≠ .none) ∧
    (r.redefined = true ∨ r.writeAgain = true → r.inFlight ≠ .none) ∧ (r.state = .free → r.inFlight = .none)
  segments : r.segments.Nodup ∧ r.segments.length = segmentsFor r.blockLen
  block : r.state.isDefined = true → r.kind = .block → 1 ≤ r.blockLen ∧ r.blockLen ≤ 32

theorem Point.inOrder_free : Point.free.InOrder where
  free _ := rfl
  retiring h := by simp [Point.free] at h
  health h := by simp [Point.free, Health.isDefined] at h
  flight := by simp [Point.free]
  segments := by simp [Point.free, segmentsFor]
  block h := by simp [Point.free, Health.isDefined] at h

namespace State

/-- The points in use with their CLASS (R14). -/
def InUse (s : State) (n : PointNo) (c : ClassSel) : Prop := (s.point n).state.isDefined = true ∧ (s.point n).cls = c

/-- The chains hold the points that `P` assigns to them (R14), and the cursor of a class in pass stands on one of its
chain (R63, R64). -/
def LinkedAs (s : State) (P : PointNo → ClassSel → Prop) : Prop :=
  (∀ c, ∃ l, s.ChainIs c l ∧ ∀ n, n ∈ l ↔ P n c) ∧
  ∀ k : ClassNo, (s.classState k).inPass = (s.classState k).cursor.isSome ∧
    ∀ n, (s.classState k).cursor = some n → P n (some k)

/-- The free list and the points divide the segments (R100). -/
def PoolDivided (s : State) : Prop :=
  s.freeSegs.Pairwise (· < ·) ∧
  (∀ g, g ∈ s.freeSegs ↔ ∀ n, g ∉ (s.point n).segments) ∧
  ∀ n m g, g ∈ (s.point n).segments → g ∈ (s.point m).segments → n = m

/-- IN_FLIGHT is set for the point of the engine's access alone (R24). -/
def AccessAgrees (s : State) : Prop := ∀ n, (s.point n).inFlight ≠ .none ↔ s.accessPoint = some n

/-- The standing facts with `P` for the points on the chains: an operation on several parts of the table passes through
states in which `P` is not yet `InUse`. -/
structure StandingAs (s : State) (P : PointNo → ClassSel → Prop) : Prop where
  records : ∀ n, (s.point n).InOrder
  pool : s.PoolDivided
  notices : s.NoticesAgree
  links : s.LinkedAs P
  scan : s.ScanQuiet

/-- The standing facts of the table and of what works on it. -/
def Standing (s : State) : Prop := s.StandingAs s.InUse

variable {s t : State} {P Q : PointNo → ClassSel → Prop} {n : PointNo} {c : ClassSel} {l : List PointNo}

/-! #### The standing facts among those of the model -/

theorem Consistent.standing (h : s.Consistent) : s.Standing where
  records n :=
    { free := (h.records n).1
      retiring := (h.records n).2
      health := h.health n
      flight := (h.flight n).2
      segments := h.pool.2.2.2.1 n
      block := h.pool.2.2.2.2 n }
  pool := ⟨h.pool.1, h.pool.2.1, h.pool.2.2.1⟩
  notices := h.notices
  links := ⟨h.chains, h.cursors⟩
  scan := h.scan

theorem Standing.recordsQuiet (h : s.Standing) : s.RecordsQuiet := fun n => ⟨(h.records n).free, (h.records n).retiring⟩

theorem Standing.healthAgrees (h : s.Standing) : s.HealthAgrees := fun n => (h.records n).health

theorem Consistent.accessAgrees (h : s.Consistent) : s.AccessAgrees := fun n => (h.flight n).1

theorem Standing.flightAgrees (h : s.Standing) (ha : s.AccessAgrees) : s.FlightAgrees :=
  fun n => ⟨ha n, (h.records n).flight⟩

theorem Standing.poolAgrees (h : s.Standing) : s.PoolAgrees :=
  ⟨h.pool.1, h.pool.2.1, h.pool.2.2, fun n => (h.records n).segments, fun n => (h.records n).block⟩

theorem Standing.chainsAgree (h : s.Standing) : s.ChainsAgree := h.links.1

theorem Standing.cursorsAgree (h : s.Standing) : s.CursorsAgree := h.links.2

theorem InUse.functional {x y : ClassSel} (hx : s.InUse n x) (hy : s.InUse n y) : x = y := hx.2.symm.trans hy.2

/-! #### What the facts depend on -/

theorem LinkedAs.congr (h : s.LinkedAs P) (hc : ∀ c, t.chain c = s.chain c)
    (hn : ∀ m c, P m c → (t.point m).next = (s.point m).next)
    (hk : ∀ k, (t.classState k).inPass = (s.classState k).inPass ∧ (t.classState k).cursor = (s.classState k).cursor) :
    t.LinkedAs P := by
  obtain ⟨hchains, hpasses⟩ := h
  refine ⟨fun c => ?_, fun k => ?_⟩
  · obtain ⟨l, hl, hmem⟩ := hchains c
    exact ⟨l, hl.congr (hc c) fun m hm => hn m c ((hmem m).mp hm), hmem⟩
  · obtain ⟨hpass, hcursor⟩ := hk k
    rw [hpass, hcursor]
    exact hpasses k

theorem LinkedAs.mono (h : s.LinkedAs P) (hPQ : ∀ m c, P m c ↔ Q m c) : s.LinkedAs Q := by
  obtain rfl : P = Q := funext fun m => funext fun c => propext (hPQ m c)
  exact h

theorem StandingAs.mono (h : s.StandingAs P) (hPQ : ∀ m c, P m c ↔ Q m c) : s.StandingAs Q :=
  { h with links := h.links.mono hPQ }

theorem PoolDivided.congr (h : s.PoolDivided) (hf : t.freeSegs = s.freeSegs)
    (hs : ∀ m, (t.point m).segments = (s.point m).segments) : t.PoolDivided := by
  unfold PoolDivided
  simp only [hf, hs]
  exact h

theorem NoticesAgree.congr (h : s.NoticesAgree) (hs : ∀ v, t.noticeSet v = s.noticeSet v)
    (hp : ∀ m, (t.point m).causes = (s.point m).causes ∧ (t.point m).level = (s.point m).level) : t.NoticesAgree := by
  unfold NoticesAgree
  simp only [hs, hp]
  exact h

theorem ScanQuiet.congr (h : s.ScanQuiet) (hr : t.scan.run = s.scan.run) (hs : t.scan.sweep = s.scan.sweep)
    (hk : ∀ k, (t.classState k).inPass = (s.classState k).inPass ∧ (t.classState k).cursor = (s.classState k).cursor) :
    t.ScanQuiet := by
  unfold ScanQuiet
  simp only [hr, hs, hk]
  exact h

/-- From `s` to `t` nothing the standing facts look at has changed. -/
structure SameStanding (s t : State) : Prop where
  points : ∀ n, t.point n = s.point n
  chains : ∀ c, t.chain c = s.chain c
  freeSegs : t.freeSegs = s.freeSegs
  sets : ∀ v, t.noticeSet v = s.noticeSet v
  run : t.scan.run = s.scan.run
  sweep : t.scan.sweep = s.scan.sweep
  passes : ∀ k, (t.classState k).inPass = (s.classState k).inPass ∧ (t.classState k).cursor = (s.classState k).cursor

theorem SameStanding.refl (s : State) : s.SameStanding s :=
  ⟨fun _ => rfl, fun _ => rfl, rfl, fun _ => rfl, rfl, rfl, fun _ => ⟨rfl, rfl⟩⟩

theorem SameStanding.trans {u : State} (h : s.SameStanding t) (h' : t.SameStanding u) : s.SameStanding u where
  points n := (h'.points n).trans (h.points n)
  chains c := (h'.chains c).trans (h.chains c)
  freeSegs := h'.freeSegs.trans h.freeSegs
  sets v := (h'.sets v).trans (h.sets v)
  run := h'.run.trans h.run
  sweep := h'.sweep.trans h.sweep
  passes k := ⟨(h'.passes k).1.trans (h.passes k).1, (h'.passes k).2.trans (h.passes k).2⟩

theorem StandingAs.same (h : s.StandingAs P) (hs : s.SameStanding t) : t.StandingAs P where
  records n := hs.points n ▸ h.records n
  pool := h.pool.congr hs.freeSegs fun m => by rw [hs.points]
  notices := h.notices.congr hs.sets fun m => by rw [hs.points]; exact ⟨rfl, rfl⟩
  links := h.links.congr hs.chains (fun m _ _ => by rw [hs.points]) hs.passes
  scan := h.scan.congr hs.run hs.sweep hs.passes

theorem Standing.same (h : s.Standing) (hs : s.SameStanding t) : t.Standing :=
  (StandingAs.same h hs).mono fun m c => by rw [InUse, InUse, hs.points]

end State

end Sys2Proof.Machine

end

/-! ### The operations on the table keep the standing facts -/

section

namespace Sys2Proof.Machine

/-! #### Records -/

theorem Point.InOrder.setNext {r : Point} (h : r.InOrder) {k : Option PointNo} (hk : r.state = .free → k = r.next) :
    { r with next := k }.InOrder where
  free hf := by
    rw [hk hf]
    exact h.free hf
  retiring := h.retiring
  health := h.health
  flight := h.flight
  segments := h.segments
  block := h.block

theorem Point.InOrder.setCauses {r : Point} (h : r.InOrder) {b : Byte} (hb : b ≠ 0 → r.state.isDefined = true) :
    { r with causes := b }.InOrder where
  free hf := by
    have hzero : b = 0 := by
      by_contra hne
      simpa [show r.state = .free from hf, Health.isDefined] using hb hne
    have hr : r = Point.free := h.free hf
    rw [hzero, hr]
    rfl
  retiring hr := by
    have hzero : b = 0 := by
      by_contra hne
      simpa [show r.state = .retiring from hr, Health.isDefined] using hb hne
    exact ⟨hzero, (h.retiring hr).2⟩
  health := h.health
  flight := h.flight
  segments := h.segments
  block := h.block

theorem Health.isDefined_iff {x : Health} : x.isDefined = true ↔ x ≠ .free ∧ x ≠ .retiring := by
  cases x <;> simp [Health.isDefined]

/-- What the checks of R3 guarantee of a definition beyond its typing. -/
structure Definition.Sound (d : Definition) : Prop where
  staleAt : 1 ≤ d.staleAt
  faultAt : d.staleAt ≤ d.faultAt
  block : d.kind = .block → 1 ≤ d.blockLen ∧ d.blockLen ≤ 32

namespace State

variable {s t : State} {P : PointNo → ClassSel → Prop} {n : PointNo} {c : ClassSel} {l : List PointNo}

/-- An accepted definition is sound, the pool covers its segments, and a MODIFY keeps the KIND (R3). -/
theorem checkDefinition_ok {raw : RawDef} {m : Option Kind} {held : Nat} {d : Definition}
    (h : s.checkDefinition raw m held = .ok d) :
    d.Sound ∧ segmentsFor d.blockLen - held ≤ s.freeSegs.length ∧ (m = none ∨ m = some d.kind) := by
  unfold checkDefinition at h
  split at h
  next => simp at h
  next d' hcheck =>
    split_ifs at h with hfits hspace
    obtain rfl : d' = d := by simpa using h
    obtain ⟨d'', hcheck', hgives⟩ := RawDef.check_of_valid (RawDef.valid_of_check hcheck)
    obtain rfl : d' = d'' := by simpa [hcheck] using hcheck'
    obtain ⟨k, hk, hm, -, -, -, hblock, hstale, hfault, -, -⟩ := RawDef.valid_of_check hcheck
    obtain ⟨hkind, -, -, -, -, hs, hf, -, hrest⟩ := hgives
    obtain rfl : k = d'.kind := by simpa [hk] using hkind
    refine ⟨⟨hs ▸ hstale, hs ▸ hf ▸ hfault, fun hb => ?_⟩, hspace, hm⟩
    rw [hb] at hrest
    obtain ⟨-, -, -, hlen, -⟩ := hrest
    rw [hlen]
    exact (hblock hb).2

/-! #### The pool (R100 to R105) -/

/-- Segments that move between the free list and one point leave the pool divided. -/
theorem PoolDivided.exchange (h : s.PoolDivided) (n : PointNo) (hasc : t.freeSegs.Pairwise (· < ·))
    (hother : ∀ m, m ≠ n → (t.point m).segments = (s.point m).segments)
    (hsum : ∀ g, (g ∈ t.freeSegs ∨ g ∈ (t.point n).segments) ↔ (g ∈ s.freeSegs ∨ g ∈ (s.point n).segments))
    (hapart : ∀ g, g ∈ t.freeSegs → g ∉ (t.point n).segments) : t.PoolDivided := by
  obtain ⟨-, hfree, hone⟩ := h
  have hfar : ∀ m g, m ≠ n → g ∈ (s.point m).segments → ¬ (g ∈ s.freeSegs ∨ g ∈ (s.point n).segments) := by
    rintro m g hm hg (hf | hn)
    · exact (hfree g).mp hf m hg
    · exact hm (hone m n g hg hn)
  refine ⟨hasc, fun g => ⟨fun hg m => ?_, fun hg => ?_⟩, fun a b g ha hb => ?_⟩
  · by_cases hm : m = n
    · exact hm ▸ hapart g hg
    · rw [hother m hm]
      exact fun hs => hfar m g hm hs ((hsum g).mp (.inl hg))
  · have hs : g ∈ s.freeSegs ∨ g ∈ (s.point n).segments := by
      by_cases hn : g ∈ (s.point n).segments
      · exact .inr hn
      · refine .inl ((hfree g).mpr fun m => ?_)
        by_cases hm : m = n
        · exact hm ▸ hn
        · exact hother m hm ▸ hg m
    exact ((hsum g).mpr hs).resolve_right (hg n)
  · by_cases hna : a = n
    · by_cases hnb : b = n
      · rw [hna, hnb]
      · rw [hother b hnb] at hb
        exact absurd ((hsum g).mp (.inr (hna ▸ ha))) (hfar b g hnb hb)
    · rw [hother a hna] at ha
      by_cases hnb : b = n
      · exact absurd ((hsum g).mp (.inr (hnb ▸ hb))) (hfar a g hna ha)
      · rw [hother b hnb] at hb
        exact hone a b g ha hb

theorem PoolDivided.nodup (h : s.PoolDivided) : s.freeSegs.Nodup :=
  h.1.imp fun hlt => ne_of_lt hlt

/-- Taking segments for a point (R101, R105). -/
theorem PoolDivided.taken (h : s.PoolDivided) (k : Nat) {r : Point}
    (hr : r.segments = (s.point n).segments ++ s.freeSegs.take k) :
    ((s.takeSegments k).setPoint n r).PoolDivided := by
  have hdivide : ∀ g, g ∈ s.freeSegs ↔ g ∈ s.freeSegs.drop k ∨ g ∈ s.freeSegs.take k := fun g => by
    rw [or_comm, ← List.mem_append, List.take_append_drop]
  refine h.exchange n ?_ (fun m hm => by simp [hm.symm]) (fun g => ?_) fun g hg => ?_
  · simpa using h.1.drop
  · simp only [setPoint_keeps, takeSegments_freeSegs, point_setPoint_self, hr, List.mem_append, hdivide g]
    tauto
  · have hnd := h.nodup
    rw [← List.take_append_drop k s.freeSegs] at hnd
    simp only [setPoint_keeps, takeSegments_freeSegs] at hg
    simp only [point_setPoint_self, hr, List.mem_append, not_or]
    exact ⟨(h.2.1 g).mp (List.mem_of_mem_drop hg) n, fun ht => List.disjoint_of_nodup_append hnd ht hg⟩

/-- Returning segments of a point (R102, R106, R107). -/
theorem PoolDivided.returned (h : s.PoolDivided) (k : Nat) {r : Point} (hnd : (s.point n).segments.Nodup)
    (hr : r.segments = (s.point n).segments.take k) :
    ((s.returnSegments ((s.point n).segments.drop k)).setPoint n r).PoolDivided := by
  obtain ⟨hasc, hmem⟩ := returned_returnSegments h.1 ((s.point n).segments.drop k)
  have hdivide : ∀ g, g ∈ (s.point n).segments ↔
      g ∈ (s.point n).segments.take k ∨ g ∈ (s.point n).segments.drop k := fun g => by
    rw [← List.mem_append, List.take_append_drop]
  refine h.exchange n hasc (fun m hm => by simp [hm.symm]) (fun g => ?_) fun g hg => ?_
  · simp only [setPoint_keeps, point_setPoint_self, hr, hmem g, hdivide g]
    tauto
  · rw [← List.take_append_drop k (s.point n).segments] at hnd
    simp only [setPoint_keeps, hmem g] at hg
    simp only [point_setPoint_self, hr]
    rcases hg with hf | hd
    · exact fun ht => (h.2.1 g).mp hf n (List.mem_of_mem_take ht)
    · exact fun ht => List.disjoint_of_nodup_append hnd ht hd

/-! #### Notices (R148, R149) -/

theorem NoticesAgree.setCauses (h : s.NoticesAgree) (n : PointNo) (b : Byte) : (s.setCauses n b).NoticesAgree :=
  ⟨pairwise_noticeSet_setCauses s n b h.1, mem_noticeSet_setCauses s n b h.2⟩

/-- A record with the same causes may take another LEVEL where they are empty. -/
theorem NoticesAgree.setPoint (h : s.NoticesAgree) {r : Point} (hc : r.causes = (s.point n).causes)
    (hl : r.causes ≠ 0 → r.level = (s.point n).level) : (s.setPoint n r).NoticesAgree := by
  obtain ⟨hasc, hmem⟩ := h
  refine ⟨by simpa using hasc, fun m v => ?_⟩
  by_cases hm : n = m
  · subst hm
    show n ∈ s.noticeSet v ↔ _
    rw [point_setPoint_self, hmem]
    rw [hc] at hl ⊢
    exact and_congr_right fun hne => by rw [hl hne]
  · simpa [hm] using hmem m v

theorem setPoint_point_self (s : State) (n : PointNo) : s.setPoint n (s.point n) = s := by
  simp [State.setPoint, point]

/-- A point without causes has nothing to empty. -/
theorem emptyCauses_of_causes_eq (h : (s.point n).causes = 0) : s.emptyCauses n = s := by
  have hsame : { s.point n with causes := 0 } = s.point n := by rw [← h]
  unfold emptyCauses State.setCauses
  dsimp only
  rw [if_pos h, if_pos rfl, hsame, setPoint_point_self]

/-! #### Chains (R14 to R16) and cursors (R64) -/

/-- The successor of a member is another member. -/
theorem ChainIs.mem_of_next {m : PointNo} (h : s.ChainIs c l) (hn : n ∈ l) (hm : (s.point n).next = some m) :
    m ∈ l ∧ m ≠ n := by
  obtain ⟨hl, hnd, -, -⟩ := h
  obtain ⟨a, b, rfl⟩ := List.append_of_mem hn
  have hhead := hl.behind.eq_head?
  rw [hm] at hhead
  have hmb : m ∈ b := List.mem_of_head? hhead.symm
  exact ⟨by simp [hmb], by rintro rfl; simp [List.nodup_append, hmb] at hnd⟩

theorem LinkedAs.mem_of_next {m : PointNo} (h : s.LinkedAs P) (hn : P n c) (hm : (s.point n).next = some m) :
    P m c ∧ m ≠ n := by
  obtain ⟨l, hl, hmem⟩ := h.1 c
  obtain ⟨hml, hne⟩ := hl.mem_of_next ((hmem n).mpr hn) hm
  exact ⟨(hmem m).mp hml, hne⟩

/-- A chain without the point keeps its members' NEXT when the point is unlinked from its own. -/
theorem LinkedAs.next_unlinkFrom (h : s.LinkedAs P) (hn : P n c) {m : PointNo} (hm : ¬ P m c) :
    ((s.unlinkFrom c n).point m).next = (s.point m).next := by
  obtain ⟨l, hl, hmem⟩ := h.1 c
  exact hl.next_unlinkFrom_of_notMem ((hmem n).mpr hn) (mt (hmem m).mp hm)

/-- Unlinking a point takes it off its chain, with the cursor moved on (R16, R64). -/
theorem LinkedAs.unlinkFrom (h : s.LinkedAs P) (hf : ∀ m x y, P m x → P m y → x = y) (hn : P n c) :
    (s.unlinkFrom c n).LinkedAs fun m x => P m x ∧ m ≠ n := by
  refine ⟨fun x => ?_, fun k => ?_⟩
  · obtain ⟨l, hl, hmem⟩ := h.1 x
    by_cases hx : x = c
    · subst hx
      refine ⟨_, hl.unlinkFrom_self ((hmem n).mpr hn), fun m => ?_⟩
      simp [hmem]
    · have hout : ∀ m, P m x → ¬ P m c := fun m hmx hmc => hx (hf m x c hmx hmc)
      refine ⟨l, hl.congr (chain_unlinkFrom_ne hx) fun m hm => h.next_unlinkFrom hn (hout m ((hmem m).mp hm)), fun m => ?_⟩
      rw [hmem]
      exact ⟨fun hm => ⟨hm, by rintro rfl; exact hout m hm hn⟩, And.left⟩
  · obtain ⟨hpass, hcursor⟩ := h.2 k
    rw [classState_unlinkFrom]
    split_ifs with hk
    · obtain ⟨rfl, -, -⟩ := hk
      exact ⟨rfl, fun m hm => h.mem_of_next hn hm⟩
    · refine ⟨hpass, fun m hm => ⟨hcursor m hm, ?_⟩⟩
      rintro rfl
      exact hk ⟨hf m _ _ hn (hcursor m hm), by simp [hpass, hm], hm⟩

/-- Appending a point of no chain puts it on the one (R15). -/
theorem LinkedAs.appendTo (h : s.LinkedAs P) (hf : ∀ m x y, P m x → P m y → x = y) (hn : ∀ x, ¬ P n x) :
    (s.appendTo c n).LinkedAs fun m x => P m x ∨ (m = n ∧ x = c) := by
  obtain ⟨l₀, hl₀, hmem₀⟩ := h.1 c
  refine ⟨fun x => ?_, fun k => ?_⟩
  · obtain ⟨l, hl, hmem⟩ := h.1 x
    have hnl : n ∉ l := mt (hmem n).mp (hn x)
    by_cases hx : x = c
    · subst hx
      exact ⟨_, hl.appendTo_self hnl, fun m => by simp [hmem]⟩
    · refine ⟨l, hl.congr (chain_appendTo_ne hx) fun m hm => ?_, fun m => by simp [hmem, hx]⟩
      have htail : (s.chain c).tail ≠ some m := fun ht =>
        hx (hf m x c ((hmem m).mp hm) ((hmem₀ m).mp (hl₀.mem_of_tail ht)))
      have hnm : n ≠ m := fun e => hnl (e ▸ hm)
      simp [next_appendTo, htail, hnm]
  · obtain ⟨hpass, hcursor⟩ := h.2 k
    simp only [appendTo_keeps]
    exact ⟨hpass, fun m hm => .inl (hcursor m hm)⟩

/-- The tail of a chain is one of its members. -/
theorem LinkedAs.tail_mem {m : PointNo} (h : s.LinkedAs P) (hm : (s.chain c).tail = some m) : P m c := by
  obtain ⟨l, hl, hmem⟩ := h.1 c
  exact (hmem m).mp (hl.mem_of_tail hm)

/-- The head of a chain is one of its members. -/
theorem LinkedAs.head_mem {m : PointNo} (h : s.LinkedAs P) (hm : (s.chain c).head = some m) : P m c := by
  obtain ⟨l, hl, hmem⟩ := h.1 c
  exact (hmem m).mp (List.mem_of_head? (hl.1.eq_head?.symm.trans hm))

/-! #### The standing facts under each operation -/

/-- One record takes another value, with what chains, pool and sets look at kept. -/
theorem StandingAs.setPoint (h : s.StandingAs P) {r : Point} (hr : r.InOrder)
    (hnext : (∃ x, P n x) → r.next = (s.point n).next) (hseg : r.segments = (s.point n).segments)
    (hcauses : r.causes = (s.point n).causes) (hlevel : r.causes ≠ 0 → r.level = (s.point n).level) :
    (s.setPoint n r).StandingAs P where
  records m := by
    rw [point_setPoint]
    split_ifs
    · exact hr
    · exact h.records m
  pool := h.pool.congr rfl fun m => by
    rw [point_setPoint]
    split_ifs with hm
    · rw [hseg, hm]
    · rfl
  notices := h.notices.setPoint hcauses hlevel
  links := h.links.congr (fun _ => rfl) (fun m x hm => by
    rw [point_setPoint]
    split_ifs with hn
    · rw [hnext ⟨x, hn ▸ hm⟩, hn]
    · rfl) fun _ => ⟨rfl, rfl⟩
  scan := h.scan

theorem StandingAs.setCauses (h : s.StandingAs P) (n : PointNo) {b : Byte}
    (hb : b ≠ 0 → (s.point n).state.isDefined = true) : (s.setCauses n b).StandingAs P where
  records m := by
    rw [point_setCauses]
    split_ifs with hm
    · subst hm
      exact (h.records n).setCauses hb
    · exact h.records m
  pool := h.pool.congr (by simp) fun m => by
    rw [point_setCauses]
    split_ifs <;> rfl
  notices := h.notices.setCauses n b
  links := h.links.congr (fun _ => by simp) (fun m x _ => by
    rw [point_setCauses]
    split_ifs <;> rfl) fun _ => by simp
  scan := h.scan.congr (by simp) (by simp) fun _ => by simp

theorem StandingAs.emptyCauses (h : s.StandingAs P) (n : PointNo) : (s.emptyCauses n).StandingAs P :=
  h.setCauses n fun h => absurd rfl h

theorem StandingAs.unlinkFrom (h : s.StandingAs P) (hf : ∀ m x y, P m x → P m y → x = y)
    (hd : ∀ m x, P m x → (s.point m).state.isDefined = true) (hn : P n c) :
    (s.unlinkFrom c n).StandingAs fun m x => P m x ∧ m ≠ n where
  records m := by
    rw [onlyNextMoves_unlinkFrom s c n m]
    refine (h.records m).setNext fun hfree => h.links.next_unlinkFrom hn fun hm => ?_
    simpa [hfree, Health.isDefined] using hd m c hm
  pool := h.pool.congr (by simp) fun m => by rw [onlyNextMoves_unlinkFrom s c n m]
  notices := h.notices.congr (by simp) fun m => by
    rw [onlyNextMoves_unlinkFrom s c n m]
    exact ⟨rfl, rfl⟩
  links := h.links.unlinkFrom hf hn
  scan := by
    have hframe := s.tableFrame_unlinkFrom c n
    intro hrun
    obtain ⟨hsweep, hidle⟩ := h.scan (hframe.run ▸ hrun)
    refine ⟨hframe.sweep.trans hsweep, fun k => ?_⟩
    rw [classState_unlinkFrom, if_neg fun hk => by simp [hidle k] at hk]
    exact hidle k

theorem StandingAs.appendTo (h : s.StandingAs P) (hf : ∀ m x y, P m x → P m y → x = y)
    (hd : ∀ m x, P m x → (s.point m).state.isDefined = true) (hn : ∀ x, ¬ P n x) :
    (s.appendTo c n).StandingAs fun m x => P m x ∨ (m = n ∧ x = c) where
  records m := by
    rw [onlyNextMoves_appendTo s c n m]
    refine (h.records m).setNext fun hfree => ?_
    have hnext : (s.point m).next = none := by
      rw [(h.records m).free hfree]
      rfl
    have htail : (s.chain c).tail ≠ some m := fun ht => by
      simpa [hfree, Health.isDefined] using hd m c (h.links.tail_mem ht)
    rw [next_appendTo, if_neg htail, hnext, ite_self]
  pool := h.pool.congr (by simp) fun m => by rw [onlyNextMoves_appendTo s c n m]
  notices := h.notices.congr (by simp) fun m => by
    rw [onlyNextMoves_appendTo s c n m]
    exact ⟨rfl, rfl⟩
  links := h.links.appendTo hf hn
  scan := h.scan.congr (by simp) (by simp) (by simp)

end State

end Sys2Proof.Machine

end

/-! ### DEFINE, MODIFY and RETIRE keep the standing facts -/

section

namespace Sys2Proof.Machine

/-! #### The records they write -/

/-- The record of an accepted DEFINE with these segments (R8). -/
def definedRecord (d : Definition) (segs : List SegNo) : Point :=
  { d.onto Point.free with state := .unread, segments := segs, shadow := longOf 0 d.initShadow }

theorem Definition.Sound.inOrder_defined {d : Definition} (h : d.Sound) {segs : List SegNo} (hnd : segs.Nodup)
    (hlen : segs.length = segmentsFor d.blockLen) : (definedRecord d segs).InOrder where
  free h := by simp [definedRecord] at h
  retiring h := by simp [definedRecord] at h
  health _ := by
    obtain ⟨hstale, hfault, -⟩ := h
    simp only [definedRecord, Definition.onto, Point.free, reduceCtorEq, false_iff]
    omega
  flight := by simp [definedRecord, Definition.onto, Point.free]
  segments := ⟨hnd, hlen⟩
  block _ := h.block

/-- R10, with the fields of a BLOCK point written out. -/
theorem modifiedRecord_eq (r : Point) (d : Definition) : State.modifiedRecord r d = { d.onto r with
    state := .unread, fails := 0, probe := 0, alarm := .normal, redefined := r.redefined || r.inFlight != .none
    lastLen := if d.kind = .block then 0 else r.lastLen, value := if d.kind = .block then 0 else r.value } := by
  unfold State.modifiedRecord
  cases hk : d.kind <;> rfl

theorem Definition.Sound.inOrder_modified {d : Definition} (h : d.Sound) {r : Point} (hr : r.InOrder)
    {segs : List SegNo} (hnd : segs.Nodup) (hlen : segs.length = segmentsFor d.blockLen) :
    (State.modifiedRecord { r with segments := segs } d).InOrder := by
  obtain ⟨-, hflags, -⟩ := hr.flight
  rw [modifiedRecord_eq]
  exact
    { free := fun h => by simp at h
      retiring := fun h => by simp at h
      health := fun _ => by
        obtain ⟨hstale, hfault, -⟩ := h
        simp only [Definition.onto, reduceCtorEq, false_iff]
        omega
      flight := by
        simp only [Definition.onto, reduceCtorEq, false_implies, true_and, and_true]
        grind
      segments := ⟨hnd, hlen⟩
      block := fun _ => h.block }

/-- The record of a point that becomes RETIRING (R12). -/
def retiringRecord (r : Point) : Point := { r with state := .retiring, holder := none, writeAgain := false }

theorem Point.InOrder.retiringRecord {r : Point} (h : r.InOrder) (hc : r.causes = 0) (hf : r.inFlight ≠ .none) :
    (retiringRecord r).InOrder where
  free h := by simp [Machine.retiringRecord] at h
  retiring _ := ⟨hc, rfl, rfl⟩
  health h := by simp [Machine.retiringRecord, Health.isDefined] at h
  flight := ⟨fun _ => hf, fun _ => hf, fun h => by simp [Machine.retiringRecord] at h⟩
  segments := h.segments
  block h := by simp [Machine.retiringRecord, Health.isDefined] at h

namespace State

variable {s t : State} {P : PointNo → ClassSel → Prop} {n m : PointNo} {c : ClassSel} {d : Definition}

/-! #### FREE points -/

theorem point_emptyCauses (s : State) (n m : PointNo) :
    (s.emptyCauses n).point m = if n = m then { s.point m with causes := 0 } else s.point m :=
  s.point_setCauses n m 0

theorem point_freePoint (s : State) (n m : PointNo) :
    (s.freePoint n).point m = if n = m then Point.free else s.point m := by
  unfold freePoint
  dsimp only
  rw [point_setPoint]
  split_ifs with h
  · rfl
  · simp [point_emptyCauses, h]

/-- A point that is on no chain becomes FREE. -/
theorem StandingAs.freePoint (h : s.StandingAs P) (hn : ∀ x, ¬ P n x) : (s.freePoint n).StandingAs P := by
  have he := h.emptyCauses n
  have hcauses : ((s.emptyCauses n).point n).causes = 0 := by rw [point_emptyCauses, if_pos rfl]
  have hreturned : ((s.emptyCauses n).returnSegments ((s.emptyCauses n).point n).segments).NoticesAgree :=
    he.notices.congr (fun _ => rfl) fun _ => ⟨rfl, rfl⟩
  exact
    { records := fun m => by
        rw [point_freePoint]
        split_ifs
        · exact Point.inOrder_free
        · exact h.records m
      pool := by
        simpa [State.freePoint] using he.pool.returned (n := n) 0 (r := Point.free) (he.records n).segments.1 rfl
      notices := hreturned.setPoint hcauses.symm fun hne => absurd rfl hne
      links := he.links.congr (fun _ => rfl) (fun m x hm => by
        have hne : n ≠ m := by
          rintro rfl
          exact hn x hm
        rw [point_freePoint, if_neg hne, point_emptyCauses, if_neg hne]) fun _ => ⟨rfl, rfl⟩
      scan := he.scan }

/-! #### DEFINE (R8) -/

theorem defineCore_of_causes_eq (h : (s.point n).causes = 0) : s.defineCore n d =
    ((s.takeSegments (segmentsFor d.blockLen)).setPoint n
      (definedRecord d (s.freeSegs.take (segmentsFor d.blockLen)))).appendTo d.cls n := by
  unfold defineCore
  rw [emptyCauses_of_causes_eq h]
  rfl

theorem Standing.defineCore (h : s.Standing) (hfree : (s.point n).state = .free) (hd : d.Sound)
    (hspace : segmentsFor d.blockLen ≤ s.freeSegs.length) : (s.defineCore n d).Standing := by
  have hn : s.point n = Point.free := (h.records n).free hfree
  have hout : ∀ x, ¬ s.InUse n x := fun x hx => by simp [InUse, hfree, Health.isDefined] at hx
  have hnd : (s.freeSegs.take (segmentsFor d.blockLen)).Nodup := h.pool.nodup.sublist (List.take_sublist _ _)
  have hlen : (s.freeSegs.take (segmentsFor d.blockLen)).length = segmentsFor d.blockLen := by
    rw [List.length_take, min_eq_left hspace]
  rw [defineCore_of_causes_eq (by rw [hn]; rfl)]
  generalize hr : definedRecord d (s.freeSegs.take (segmentsFor d.blockLen)) = r
  generalize hk : segmentsFor d.blockLen = k at *
  have hrd : r.state.isDefined = true ∧ r.cls = d.cls ∧ r.causes = 0 ∧
      r.segments = (s.point n).segments ++ s.freeSegs.take k := by
    rw [← hr, hn]
    exact ⟨rfl, rfl, rfl, rfl⟩
  obtain ⟨hrdef, hrcls, hrcauses, hrsegs⟩ := hrd
  have hput : ((s.takeSegments k).setPoint n r).StandingAs s.InUse :=
    { records := fun m => by
        rw [point_setPoint]
        split_ifs
        · exact hr ▸ hd.inOrder_defined hnd (hlen.trans hk.symm)
        · simpa using h.records m
      pool := h.pool.taken k hrsegs
      notices := by
        have htaken : (s.takeSegments k).NoticesAgree := h.notices.congr (by simp) (by simp)
        refine htaken.setPoint ?_ fun hne => absurd hrcauses hne
        simp [hrcauses, hn, Point.free]
      links := h.links.congr (by simp) (fun m x hm => by
        have hne : n ≠ m := by
          rintro rfl
          exact hout x hm
        simp [hne]) (by simp)
      scan := h.scan.congr (by simp) (by simp) (by simp) }
  have hdef : ∀ m x, s.InUse m x → (((s.takeSegments k).setPoint n r).point m).state.isDefined = true := fun m x hm => by
    rw [point_setPoint]
    split_ifs
    · exact hrdef
    · simpa using hm.1
  refine (hput.appendTo (c := d.cls) (fun _ _ _ => InUse.functional) hdef hout).mono fun m x => ?_
  unfold InUse
  rw [onlyNextMoves_appendTo _ d.cls n m, point_setPoint]
  split_ifs with hm
  · subst hm
    have hx := hout x
    unfold InUse at hx
    simp only [hx, hrdef, hrcls, false_or, true_and]
    exact eq_comm
  · simp [Ne.symm hm]

/-! #### MODIFY (R10, R18, R105, R106) -/

/-- SEGMENTS of a point after a MODIFY to BLOCK_LEN `len` (R105, R106). -/
def resizedSegments (s : State) (n : PointNo) (len : Nat) : List SegNo :=
  if (s.point n).segments.length < segmentsFor len then
    (s.point n).segments ++ s.freeSegs.take (segmentsFor len - (s.point n).segments.length)
  else (s.point n).segments.take (segmentsFor len)

theorem point_resizeSegments (s : State) (n m : PointNo) (len : Nat) : (s.resizeSegments n len).point m =
    if n = m then { s.point m with segments := s.resizedSegments n len } else s.point m := by
  by_cases h : (s.point n).segments.length < segmentsFor len
  · rw [resizeSegments_grown h, point_setPoint, resizedSegments, if_pos h]
    split_ifs with hm
    · rw [hm]
    · simp
  · rw [resizeSegments_shrunk h, point_setPoint, resizedSegments, if_neg h]
    split_ifs with hm
    · rw [hm]
    · simp

theorem length_resizedSegments {len : Nat}
    (hspace : segmentsFor len - (s.point n).segments.length ≤ s.freeSegs.length) :
    (s.resizedSegments n len).length = segmentsFor len := by
  unfold resizedSegments
  split_ifs <;> simp <;> omega

theorem PoolDivided.nodup_resizedSegments (h : s.PoolDivided) (hnd : (s.point n).segments.Nodup) (len : Nat) :
    (s.resizedSegments n len).Nodup := by
  unfold resizedSegments
  split_ifs
  · refine List.nodup_append.mpr ⟨hnd, h.nodup.sublist (List.take_sublist _ _), ?_⟩
    rintro g hg _ hf rfl
    exact (h.2.1 g).mp (List.mem_of_mem_take hf) n hg
  · exact hnd.sublist (List.take_sublist _ _)

/-- The segments and the record of a MODIFY, put in place together. -/
def redefine (s : State) (n : PointNo) (d : Definition) : State :=
  (s.resizeSegments n d.blockLen).setPoint n
    (modifiedRecord { s.point n with segments := s.resizedSegments n d.blockLen } d)

theorem modifyCore_parts (s : State) (n : PointNo) (d : Definition) : s.modifyCore n d =
    (((s.emptyCauses n).moveChain n d.cls).redefine n d).commitBlock
      ((((s.emptyCauses n).moveChain n d.cls).redefine n d).point n) [] := by
  have hrecord : ((((s.emptyCauses n).moveChain n d.cls).resizeSegments n d.blockLen).point n) =
      { ((s.emptyCauses n).moveChain n d.cls).point n with
        segments := ((s.emptyCauses n).moveChain n d.cls).resizedSegments n d.blockLen } := by
    rw [point_resizeSegments, if_pos rfl]
  unfold modifyCore redefine
  dsimp only
  rw [hrecord]

theorem point_redefine (s : State) (n m : PointNo) (d : Definition) : (s.redefine n d).point m =
    if n = m then modifiedRecord { s.point m with segments := s.resizedSegments n d.blockLen } d else s.point m := by
  rw [redefine, point_setPoint]
  split_ifs with h
  · rw [h]
  · rw [point_resizeSegments, if_neg h]

/-- What is on either side of the new record when the segments have been adjusted. -/
theorem redefine_cases (s : State) (n : PointNo) (d : Definition) :
    (∃ k, s.resizedSegments n d.blockLen = (s.point n).segments ++ s.freeSegs.take k ∧
      s.redefine n d = (s.takeSegments k).setPoint n
        (modifiedRecord { s.point n with segments := s.resizedSegments n d.blockLen } d)) ∨
    (∃ k, s.resizedSegments n d.blockLen = (s.point n).segments.take k ∧
      s.redefine n d = (s.returnSegments ((s.point n).segments.drop k)).setPoint n
        (modifiedRecord { s.point n with segments := s.resizedSegments n d.blockLen } d)) := by
  by_cases h : (s.point n).segments.length < segmentsFor d.blockLen
  · refine .inl ⟨segmentsFor d.blockLen - (s.point n).segments.length, by rw [resizedSegments, if_pos h], ?_⟩
    rw [redefine, resizeSegments_grown h, setPoint_setPoint]
  · refine .inr ⟨segmentsFor d.blockLen, by rw [resizedSegments, if_neg h], ?_⟩
    rw [redefine, resizeSegments_shrunk h, setPoint_setPoint]

theorem redefine_keeps (s : State) (n : PointNo) (d : Definition) :
    (∀ c, (s.redefine n d).chain c = s.chain c) ∧ (∀ v, (s.redefine n d).noticeSet v = s.noticeSet v) ∧
    (s.redefine n d).scan = s.scan ∧ (∀ k, (s.redefine n d).classState k = s.classState k) := by
  obtain ⟨k, -, h⟩ | ⟨k, -, h⟩ := s.redefine_cases n d <;> rw [h] <;> simp

theorem modifiedRecord_keeps (r : Point) (d : Definition) :
    (modifiedRecord r d).segments = r.segments ∧ (modifiedRecord r d).next = r.next ∧
    (modifiedRecord r d).causes = r.causes ∧ (modifiedRecord r d).cls = d.cls ∧
    (modifiedRecord r d).state = .unread ∧ (modifiedRecord r d).inFlight = r.inFlight := by
  rw [modifiedRecord_eq]
  exact ⟨rfl, rfl, rfl, rfl, rfl, rfl⟩

theorem StandingAs.redefine (h : s.StandingAs P) (hc : (s.point n).causes = 0) (hd : d.Sound)
    (hspace : segmentsFor d.blockLen - (s.point n).segments.length ≤ s.freeSegs.length) :
    (s.redefine n d).StandingAs P := by
  obtain ⟨hnd, -⟩ := (h.records n).segments
  have hrecord := hd.inOrder_modified (h.records n) (h.pool.nodup_resizedSegments hnd d.blockLen)
    (length_resizedSegments hspace)
  obtain ⟨hsegs, hnext, hcauses, -⟩ :=
    modifiedRecord_keeps { s.point n with segments := s.resizedSegments n d.blockLen } d
  obtain ⟨hchain, hset, hscan, hclass⟩ := s.redefine_keeps n d
  exact
    { records := fun m => by
        rw [point_redefine]
        split_ifs with hm
        · exact hm ▸ hrecord
        · exact h.records m
      pool := by
        obtain ⟨k, hr, heq⟩ | ⟨k, hr, heq⟩ := s.redefine_cases n d
        · rw [heq]
          exact h.pool.taken k (hsegs.trans hr)
        · rw [heq]
          exact h.pool.returned k hnd (hsegs.trans hr)
      notices := by
        refine ⟨fun v => hset v ▸ h.notices.1 v, fun m v => ?_⟩
        rw [hset, h.notices.2, point_redefine]
        split_ifs with hm
        · subst hm
          rw [hcauses]
          simp [hc]
        · rfl
      links := h.links.congr hchain (fun m x _ => by
        rw [point_redefine]
        split_ifs with hm
        · subst hm
          exact hnext
        · rfl) fun k => by rw [hclass]; exact ⟨rfl, rfl⟩
      scan := h.scan.congr (by rw [hscan]) (by rw [hscan]) fun k => by rw [hclass]; exact ⟨rfl, rfl⟩ }

/-- A move to the chain of `c` puts a point in use on that chain alone (R18). -/
theorem StandingAs.moveChain (h : s.StandingAs s.InUse) (hn : (s.point n).state.isDefined = true) :
    (s.moveChain n c).StandingAs fun m x => (s.InUse m x ∧ m ≠ n) ∨ (m = n ∧ x = c) := by
  by_cases hc : c = (s.point n).cls
  · rw [moveChain_of_eq hc]
    refine h.mono fun m x => ?_
    by_cases hm : m = n
    · subst hm
      simp [InUse, hn, hc, eq_comm]
    · simp [hm]
  · rw [moveChain_of_ne hc]
    have hleft := h.unlinkFrom (n := n) (fun _ _ _ => InUse.functional) (fun _ _ hm => hm.1) ⟨hn, rfl⟩
    refine hleft.appendTo (fun _ _ _ hx hy => hx.1.functional hy.1) (fun m x hm => ?_) fun x hx => hx.2 rfl
    rw [onlyNextMoves_unlinkFrom s _ n m]
    exact hm.1.1

theorem onlyNextMoves_moveChain (s : State) (n : PointNo) (c : ClassSel) : s.OnlyNextMoves (s.moveChain n c) := by
  by_cases hc : c = (s.point n).cls
  · rw [moveChain_of_eq hc]
    exact .of_points_eq fun _ => rfl
  · rw [moveChain_of_ne hc]
    exact (onlyNextMoves_unlinkFrom s _ n).trans (onlyNextMoves_appendTo _ c n)

theorem sameStanding_commitBlock (s : State) (r : Point) (ws : List Word) : s.SameStanding (s.commitBlock r ws) := by
  constructor <;> simp

theorem Standing.modifyCore (h : s.Standing) (hn : (s.point n).state.isDefined = true) (hd : d.Sound)
    (hspace : segmentsFor d.blockLen - (s.point n).segments.length ≤ s.freeSegs.length) :
    (s.modifyCore n d).Standing := by
  have hempty : (s.emptyCauses n).StandingAs (s.emptyCauses n).InUse :=
    (h.emptyCauses n).mono fun m x => by
      rw [InUse, InUse, point_emptyCauses]
      split_ifs <;> rfl
  have hn' : ((s.emptyCauses n).point n).state.isDefined = true := by
    rw [point_emptyCauses, if_pos rfl]
    exact hn
  have hmoved := hempty.moveChain (c := d.cls) hn'
  have hnext := onlyNextMoves_moveChain (s.emptyCauses n) n d.cls
  have hfree : ((s.emptyCauses n).moveChain n d.cls).freeSegs = s.freeSegs := by
    by_cases hc : d.cls = ((s.emptyCauses n).point n).cls
    · rw [moveChain_of_eq hc]
      simp
    · rw [moveChain_of_ne hc]
      simp
  rw [modifyCore_parts]
  have hredefined := hmoved.redefine (n := n) (d := d) (by rw [hnext n, point_emptyCauses, if_pos rfl]) hd
    (by rw [hnext n, point_emptyCauses, if_pos rfl, hfree]; exact hspace)
  refine (hredefined.same (sameStanding_commitBlock _ _ _)).mono fun m x => ?_
  unfold InUse
  rw [(sameStanding_commitBlock _ _ _).points, point_redefine]
  obtain ⟨-, -, -, hcls, hstate, -⟩ := modifiedRecord_keeps
    { ((s.emptyCauses n).moveChain n d.cls).point n with
      segments := ((s.emptyCauses n).moveChain n d.cls).resizedSegments n d.blockLen } d
  by_cases hm : n = m
  · subst hm
    simp only [ne_eq, not_true_eq_false, and_false, if_true, hcls, hstate, Health.isDefined, false_or, true_and]
    exact eq_comm
  · rw [if_neg hm, hnext m]
    simp [Ne.symm hm]

/-! #### RETIRE (R11, R12, R48) -/

/-- A point that has left its chain, its causes emptied: the first half of a retirement. -/
def detach (s : State) (n : PointNo) : State := (s.unlinkFrom (s.point n).cls n).emptyCauses n

theorem point_detach (s : State) (n m : PointNo) : (s.detach n).point m =
    if n = m then { s.point m with causes := 0, next := none }
    else { s.point m with next := ((s.unlinkFrom (s.point n).cls n).point m).next } := by
  rw [detach, point_emptyCauses, onlyNextMoves_unlinkFrom s _ n m]
  split_ifs with h
  · rw [next_unlinkFrom, if_pos h]
  · rfl

theorem retireRecord_of_idle (h : (s.point n).inFlight = .none) : s.retireRecord n = (s.detach n).freePoint n := by
  have hd : ((s.detach n).point n).inFlight = .none := by rw [point_detach, if_pos rfl]; exact h
  unfold retireRecord
  exact if_pos hd

theorem retireRecord_of_flight (h : (s.point n).inFlight ≠ .none) :
    s.retireRecord n = (s.detach n).setPoint n (retiringRecord ((s.detach n).point n)) := by
  have hd : ((s.detach n).point n).inFlight ≠ .none := by rw [point_detach, if_pos rfl]; exact h
  unfold retireRecord
  exact if_neg hd

theorem Standing.detach (h : s.Standing) (hn : (s.point n).state.isDefined = true) :
    (s.detach n).StandingAs fun m x => s.InUse m x ∧ m ≠ n :=
  (StandingAs.unlinkFrom h (fun _ _ _ => InUse.functional) (fun _ _ hm => hm.1) ⟨hn, rfl⟩).emptyCauses n

/-- The record of the retired point, and of every other point. -/
theorem point_retireRecord (s : State) (n m : PointNo) : (s.retireRecord n).point m =
    if n = m then
      if (s.point m).inFlight = .none then Point.free
      else { s.point m with state := .retiring, holder := none, writeAgain := false, causes := 0, next := none }
    else { s.point m with next := ((s.unlinkFrom (s.point n).cls n).point m).next } := by
  by_cases hf : (s.point n).inFlight = .none
  · rw [retireRecord_of_idle hf, point_freePoint]
    by_cases hm : n = m
    · subst hm
      simp [hf]
    · rw [if_neg hm, if_neg hm, point_detach, if_neg hm]
  · rw [retireRecord_of_flight hf, point_setPoint]
    by_cases hm : n = m
    · subst hm
      rw [if_pos rfl, if_pos rfl, if_neg hf, point_detach, if_pos rfl]
      rfl
    · rw [if_neg hm, if_neg hm, point_detach, if_neg hm]

theorem Standing.retireRecord (h : s.Standing) (hn : (s.point n).state.isDefined = true) :
    (s.retireRecord n).Standing := by
  have hdetached := h.detach hn
  have hretired : (s.retireRecord n).StandingAs fun m x => s.InUse m x ∧ m ≠ n := by
    by_cases hf : (s.point n).inFlight = .none
    · rw [retireRecord_of_idle hf]
      exact hdetached.freePoint fun x hx => hx.2 rfl
    · rw [retireRecord_of_flight hf]
      have hcauses : ((s.detach n).point n).causes = 0 := by rw [point_detach, if_pos rfl]
      have hflight : ((s.detach n).point n).inFlight ≠ .none := by
        rw [point_detach, if_pos rfl]
        exact hf
      exact hdetached.setPoint ((hdetached.records n).retiringRecord hcauses hflight) (fun ⟨x, hx⟩ => absurd rfl hx.2)
        rfl rfl fun _ => rfl
  refine hretired.mono fun m x => ?_
  unfold InUse
  rw [point_retireRecord]
  by_cases hm : n = m
  · subst hm
    simp only [ne_eq, not_true_eq_false, and_false, if_true, false_iff]
    split_ifs <;> simp [Point.free, Health.isDefined]
  · simp [hm, Ne.symm hm]

theorem sameStanding_retireWaiter (s : State) (n : PointNo) (p : Port) : s.SameStanding (s.retireWaiter n p) := by
  constructor <;> simp

theorem sameStanding_retirePoint (s : State) (n : PointNo) : (s.retireRecord n).SameStanding (s.retirePoint n) :=
  (sameStanding_retireWaiter _ n .primary).trans (sameStanding_retireWaiter _ n .maint)

theorem point_retirePoint (s : State) (n m : PointNo) : (s.retirePoint n).point m = (s.retireRecord n).point m :=
  (s.sameStanding_retirePoint n).points m

theorem Standing.retirePoint (h : s.Standing) (hn : (s.point n).state.isDefined = true) : (s.retirePoint n).Standing :=
  (h.retireRecord hn).same (s.sameStanding_retirePoint n)

/-- The retirement of one point leaves the state of every other. -/
theorem state_retirePoint_ne (h : n ≠ m) : ((s.retirePoint n).point m).state = (s.point m).state := by
  rw [point_retirePoint, point_retireRecord, if_neg h]

theorem Standing.foldl_retirePoint {ns : List PointNo} (h : s.Standing) (hnd : ns.Nodup)
    (hd : ∀ m ∈ ns, (s.point m).state.isDefined = true) : (ns.foldl State.retirePoint s).Standing := by
  induction ns generalizing s with
  | nil => exact h
  | cons n ns ih =>
    obtain ⟨hn, hns⟩ := List.nodup_cons.mp hnd
    refine ih (h.retirePoint (hd n (by simp))) hns fun m hm => ?_
    rw [state_retirePoint_ne (by rintro rfl; exact hn hm)]
    exact hd m (by simp [hm])

end State

end Sys2Proof.Machine

end

/-! ### The records, the scan engine and the resets under the standing facts -/

section

namespace Sys2Proof.Machine

/-! #### Records -/

variable {r : Point}

theorem Point.InOrder.isDefined_of_causes (h : r.InOrder) (hc : r.causes ≠ 0) : r.state.isDefined = true := by
  refine Health.isDefined_iff.mpr ⟨fun hf => hc ?_, fun hr => hc (h.retiring hr).1⟩
  rw [h.free hf]
  rfl

/-- The start of an access sets IN_FLIGHT (R24). -/
theorem Point.InOrder.setFlight (h : r.InOrder) {x : InFlight} (hx : x ≠ .none) (hs : r.state ≠ .free) :
    { r with inFlight := x }.InOrder where
  free hf := absurd hf hs
  retiring := h.retiring
  health := h.health
  flight := ⟨fun _ => hx, fun _ => hx, fun hf => absurd hf hs⟩
  segments := h.segments
  block := h.block

/-- A completion clears IN_FLIGHT with both flags (R25). -/
theorem Point.InOrder.clearFlight (h : r.InOrder) (hs : r.state.isDefined = true) :
    { r with inFlight := .none, redefined := false, writeAgain := false }.InOrder where
  free hf := absurd hf (Health.isDefined_iff.mp hs).1
  retiring hr := absurd hr (Health.isDefined_iff.mp hs).2
  health := h.health
  flight := ⟨fun hr => absurd hr (Health.isDefined_iff.mp hs).2, fun hf => by simp at hf, fun _ => rfl⟩
  segments := h.segments
  block := h.block

theorem Point.InOrder.setHolder (h : r.InOrder) (hs : r.state.isDefined = true) (x : Option Port) :
    { r with holder := x }.InOrder where
  free hf := absurd hf (Health.isDefined_iff.mp hs).1
  retiring hr := absurd hr (Health.isDefined_iff.mp hs).2
  health := h.health
  flight := h.flight
  segments := h.segments
  block := h.block

theorem Point.InOrder.setShadow (h : r.InOrder) (hs : r.state.isDefined = true) (x : Long) :
    { r with shadow := x }.InOrder where
  free hf := absurd hf (Health.isDefined_iff.mp hs).1
  retiring := h.retiring
  health := h.health
  flight := h.flight
  segments := h.segments
  block := h.block

/-- A WRITE that finds an access in flight owes another (R46). -/
theorem Point.InOrder.setWriteAgain (h : r.InOrder) (hs : r.state.isDefined = true) (hf : r.inFlight ≠ .none) :
    { r with writeAgain := true }.InOrder where
  free hfree := absurd hfree (Health.isDefined_iff.mp hs).1
  retiring hr := absurd hr (Health.isDefined_iff.mp hs).2
  health := h.health
  flight := ⟨fun _ => hf, fun _ => hf, fun hfree => absurd hfree (Health.isDefined_iff.mp hs).1⟩
  segments := h.segments
  block := h.block

/-- A visit of a FAULTED point counts PROBE down (R62). -/
theorem Point.InOrder.countProbe (h : r.InOrder) (hs : r.state = .faulted) :
    { r with probe := r.probe - 1 }.InOrder where
  free hf := by simp [hs] at hf
  retiring := h.retiring
  health hd := by
    obtain ⟨h₁, h₂, h₃, h₄, h₅, h₆⟩ := h.health hd
    exact ⟨h₁, h₂, h₃, h₄, h₅, (Nat.sub_le _ _).trans h₆⟩
  flight := h.flight
  segments := h.segments
  block := h.block

/-- The record of the warm reset (R13). -/
theorem Point.InOrder.warm (h : r.InOrder) : r.warm.InOrder := by
  unfold Point.warm
  split_ifs with hr
  · exact Point.inOrder_free
  · exact
      { free := fun hf => by rw [h.free hf]; rfl
        retiring := fun hr' => absurd hr' hr
        health := h.health
        flight := ⟨fun hr' => absurd hr' hr, fun hf => by simp at hf, fun _ => rfl⟩
        segments := h.segments
        block := h.block }

/-! #### What a counted completion makes of a record (R9, R83) -/

/-- Value processing touches VALUE, REFERENCE, ALARM, MISMATCHES and LAST_LEN (R83). -/
theorem judgeValue_eq (r : Point) (before : List Word) (c : Completion) : ∃ v x a m l,
    (judgeValue r before c).point =
      { r with value := v, reference := x, alarm := a, mismatches := m, lastLen := l } := by
  unfold judgeValue
  split <;> split <;> exact ⟨_, _, _, _, _, rfl⟩

/-- The failed transition of R9 on a record in order: the state and the counters it can give. -/
theorem failedHealth_eq (h : r.InOrder) (hs : r.state.isDefined = true) : ∃ x f p,
    (failedHealth r).point = { r with state := x, fails := f, probe := p } ∧
    x.isDefined = true ∧ f ≤ r.faultAt ∧ (x = .faulted ↔ f = r.faultAt) ∧
    (x = .stale ↔ r.staleAt ≤ f ∧ f < r.faultAt) ∧ p ≤ 7 := by
  obtain ⟨hmin, hle, hfails, hfault, hstale, hprobe⟩ := h.health hs
  unfold failedHealth
  split_ifs with hfaulted hat hst
  · exact ⟨r.state, r.fails, _, rfl, hs, hfails, hfault, hstale, le_rfl⟩
  · refine ⟨_, _, _, rfl, rfl, hat.le, by simp [hat], ?_, le_rfl⟩
    simp only [reduceCtorEq, false_iff]
    omega
  · refine ⟨.stale, r.fails + 1, r.probe, rfl, rfl, ?_, ?_, ?_, hprobe⟩
    · omega
    · simp only [reduceCtorEq, false_iff]
      omega
    · simp only [true_iff]
      omega
  · have hlt : r.fails ≠ r.faultAt := fun e => hfaulted (hfault.mpr e)
    refine ⟨r.state, r.fails + 1, r.probe, rfl, hs, by omega, ?_, ?_, hprobe⟩
    · simp only [hfaulted, false_iff]
      omega
    · rw [hstale]
      omega

/-- A counted completion leaves a record in order (R9). -/
theorem Point.InOrder.judged (h : r.InOrder) (hs : r.state.isDefined = true) (hn : r.redefined = false)
    (before : List Word) (c : Completion) :
    { (judge r before c).point with inFlight := .none, writeAgain := false }.InOrder := by
  have hmake : ∀ (x : Health) (f p : Nat) (v y : Long) (a : Alarm) (m l : Nat), x.isDefined = true →
      f ≤ r.faultAt → (x = .faulted ↔ f = r.faultAt) → (x = .stale ↔ r.staleAt ≤ f ∧ f < r.faultAt) → p ≤ 7 →
      { r with state := x, fails := f, probe := p, value := v, reference := y, alarm := a, mismatches := m
               lastLen := l, inFlight := .none, writeAgain := false }.InOrder := by
    intro x f p v y a m l hx hf hfault hstale hp
    obtain ⟨hfree, hret⟩ := Health.isDefined_iff.mp hx
    obtain ⟨hmin, hle, -⟩ := h.health hs
    exact
      { free := fun e => absurd e hfree
        retiring := fun e => absurd e hret
        health := fun _ => ⟨hmin, hle, hf, hfault, hstale, hp⟩
        flight := ⟨fun e => absurd e hret, fun e => by simp [hn] at e, fun _ => rfl⟩
        segments := h.segments
        block := fun _ => h.block hs }
  obtain ⟨hmin, hle, -⟩ := h.health hs
  unfold judge
  cases c.outcome with
  | ok =>
    obtain ⟨v, x, a, m, l, hv⟩ := judgeValue_eq r before c
    dsimp only [goodHealth]
    rw [hv]
    exact hmake .active 0 0 v x a m l rfl (Nat.zero_le _) (by simp only [reduceCtorEq, false_iff]; omega)
      (by simp only [reduceCtorEq, false_iff]; omega) (Nat.zero_le _)
  | noRegion | isProtected | timeout =>
    obtain ⟨x, f, p, hx, hd, hf, hfault, hstale, hp⟩ := failedHealth_eq h hs
    dsimp only
    rw [hx]
    exact hmake x f p r.value r.reference r.alarm r.mismatches r.lastLen hd hf hfault hstale hp

/-- What a counted completion may change of a record, CAUSES apart. -/
theorem judge_keepsDefinition (r : Point) (before : List Word) (c : Completion) :
    (judge r before c).point.next = r.next ∧ (judge r before c).point.segments = r.segments ∧
    (judge r before c).point.cls = r.cls ∧ (r.state.isDefined = true → (judge r before c).point.state.isDefined = true) := by
  unfold judge
  cases c.outcome with
  | ok =>
    obtain ⟨v, x, a, m, l, hv⟩ := judgeValue_eq r before c
    dsimp only [goodHealth]
    rw [hv]
    exact ⟨rfl, rfl, rfl, fun _ => rfl⟩
  | noRegion | isProtected | timeout =>
    dsimp only [failedHealth]
    split_ifs
    · exact ⟨rfl, rfl, rfl, id⟩
    · exact ⟨rfl, rfl, rfl, fun _ => rfl⟩
    · exact ⟨rfl, rfl, rfl, fun _ => rfl⟩
    · exact ⟨rfl, rfl, rfl, id⟩

namespace State

variable {s t : State} {P : PointNo → ClassSel → Prop} {n : PointNo} {c : ClassNo}

/-! #### States with the same table -/

theorem SameStanding.of_eq (hp : t.points = s.points) (hc : t.chains = s.chains) (hf : t.freeSegs = s.freeSegs)
    (hn : t.notify.sets = s.notify.sets) (hr : t.scan.run = s.scan.run) (hw : t.scan.sweep = s.scan.sweep)
    (hk : t.scan.classes = s.scan.classes) : s.SameStanding t where
  points m := by rw [point, point, hp]
  chains x := by rw [chain, chain, hc]
  freeSegs := hf
  sets v := by rw [noticeSet, noticeSet, hn]
  run := hr
  sweep := hw
  passes k := by
    rw [classState, classState, hk]
    exact ⟨rfl, rfl⟩

theorem sameStanding_setClassState {x : ClassState} (hp : x.inPass = (s.classState c).inPass)
    (hx : x.cursor = (s.classState c).cursor) : s.SameStanding (s.setClassState c x) := by
  refine ⟨by simp, by simp, by simp, by simp, rfl, rfl, fun k => ?_⟩
  by_cases hk : c = k
  · subst hk
    simp [hp, hx]
  · simp [hk]

theorem sameStanding_restartClass (s : State) (c : ClassNo) (w : Word) : s.SameStanding (s.restartClass c w) :=
  sameStanding_setClassState rfl rfl

theorem sameStanding_clearOverrun (s : State) (w : Word) (c : ClassNo) : s.SameStanding (s.clearOverrun w c) :=
  sameStanding_setClassState rfl rfl

/-! #### The scan engine -/

/-- The scan engine's part is replaced, cursors on linked points. -/
theorem StandingAs.rescan (h : s.StandingAs P) (hp : ∀ m, t.point m = s.point m) (hc : ∀ x, t.chain x = s.chain x)
    (hf : t.freeSegs = s.freeSegs) (hn : ∀ v, t.noticeSet v = s.noticeSet v)
    (hk : ∀ k : ClassNo, (t.classState k).inPass = (t.classState k).cursor.isSome ∧
      ∀ m, (t.classState k).cursor = some m → P m (some k)) (hq : t.ScanQuiet) : t.StandingAs P where
  records m := hp m ▸ h.records m
  pool := h.pool.congr hf fun m => by rw [hp]
  notices := h.notices.congr hn fun m => by
    rw [hp]
    exact ⟨rfl, rfl⟩
  links := by
    refine ⟨fun x => ?_, hk⟩
    obtain ⟨l, hl, hmem⟩ := h.links.1 x
    exact ⟨l, hl.congr (hc x) fun m _ => by rw [hp], hmem⟩
  scan := hq

/-- The scan engine's part is replaced, with nothing in progress. -/
theorem StandingAs.rescanQuiet (h : s.StandingAs P) (hp : ∀ m, t.point m = s.point m) (hc : ∀ x, t.chain x = s.chain x)
    (hf : t.freeSegs = s.freeSegs) (hn : ∀ v, t.noticeSet v = s.noticeSet v)
    (hk : ∀ k, (t.classState k).inPass = false ∧ (t.classState k).cursor = none) (hw : t.scan.sweep = none) :
    t.StandingAs P := by
  refine h.rescan hp hc hf hn (fun k => ?_) fun _ => ⟨hw, hk⟩
  obtain ⟨hpass, hcursor⟩ := hk k
  simp [hpass, hcursor]

/-- One class takes another pass state, with its cursor on a linked point. -/
theorem StandingAs.setClassState (h : s.StandingAs P) {x : ClassState} (hx : x.inPass = x.cursor.isSome)
    (hc : ∀ m, x.cursor = some m → P m (some c)) (hr : s.scan.run = false → x.cursor = none) :
    (s.setClassState c x).StandingAs P := by
  refine h.rescan (by simp) (by simp) (by simp) (by simp) (fun k => ?_) fun hrun => ?_
  · by_cases hk : c = k
    · subst hk
      simpa using ⟨hx, hc⟩
    · simpa [hk] using h.links.2 k
  · obtain ⟨hsweep, hquiet⟩ := h.scan hrun
    refine ⟨hsweep, fun k => ?_⟩
    by_cases hk : c = k
    · subst hk
      simp [hx, hr hrun]
    · simpa [hk] using hquiet k

/-- Work in progress stands while SCAN_RUN is set. -/
theorem Standing.cursor_none (h : s.Standing) (hr : s.scan.run = false) (k : ClassNo) :
    (s.classState k).cursor = none := ((h.scan hr).2 k).2

/-- An expiry starts a pass at HEAD or counts an overrun (R58, R59). -/
theorem Standing.takeExpiry (h : s.Standing) (hr : s.scan.run = true) (c : ClassNo) : (s.takeExpiry c).Standing := by
  have hrun : s.scan.run = false → ∀ x : Option PointNo, x = none := fun e => by simp [hr] at e
  obtain ⟨hpass, hcursor⟩ := h.links.2 c
  unfold State.takeExpiry
  dsimp only
  split_ifs with hin
  · exact StandingAs.setClassState h hpass hcursor fun e => hrun e _
  · split
    next m hm =>
      refine StandingAs.setClassState h ?_ ?_ fun e => hrun e _
      · rfl
      · rintro q ⟨⟩
        exact h.links.head_mem hm
    next => exact StandingAs.setClassState h hpass hcursor fun e => hrun e _

theorem Standing.countDown (h : s.Standing) (c : ClassNo) : (s.countDown c).Standing := by
  unfold State.countDown
  dsimp only
  split_ifs with hruns hdue
  · have hrun : s.scan.run = true := by
      simp only [timerRuns, Bool.and_eq_true] at hruns
      exact hruns.1.1
    exact (h.takeExpiry hrun c).same (sameStanding_setClassState rfl rfl)
  · exact h.same (sameStanding_setClassState rfl rfl)
  · exact h

theorem sameStanding_mapAccess (s : State) (f : Access → Access) : s.SameStanding (s.mapAccess f) := by
  unfold mapAccess
  split
  · exact .of_eq rfl rfl rfl rfl rfl rfl rfl
  all_goals exact .refl s

theorem sameStanding_timebase (s : State) (x : Timebase) : s.SameStanding { s with timebase := x } :=
  .of_eq rfl rfl rfl rfl rfl rfl rfl

theorem Standing.millisecondTick (h : s.Standing) : s.millisecondTick.Standing :=
  (((h.countDown 0).countDown 1).countDown 2).countDown 3

theorem Standing.microsecondTick (h : s.Standing) : s.microsecondTick.Standing := by
  have hm := h.same (s.sameStanding_mapAccess fun a => { a with ticks := a.ticks + 1 })
  unfold State.microsecondTick
  dsimp only
  split_ifs
  · exact hm.same (sameStanding_timebase _ _)
  · exact (hm.same (sameStanding_timebase _ _)).millisecondTick

theorem Standing.clkPeriod (h : s.Standing) : s.clkPeriod.Standing := by
  have hm := h.same (s.sameStanding_mapAccess fun a => { a with clks := a.clks + 1 })
  unfold State.clkPeriod
  dsimp only
  split_ifs
  · exact hm.same (sameStanding_timebase _ _)
  · exact (hm.same (sameStanding_timebase _ _)).microsecondTick

theorem Standing.runClk (h : s.Standing) (k : Nat) : (s.runClk k).Standing := by
  induction k generalizing s with
  | zero => exact h
  | succ k ih => exact ih h.clkPeriod

theorem sameStanding_placeRequest (s : State) (r : Requester) (n : PointNo) (f : Bool) :
    s.SameStanding (s.placeRequest r n f) := by
  rw [s.busOnly_placeRequest r n f]
  exact .of_eq rfl rfl rfl rfl rfl rfl rfl

theorem sameStanding_scanFree (s : State) : s.SameStanding s.scanFree := .of_eq rfl rfl rfl rfl rfl rfl rfl

theorem sameStanding_placeVisit (s : State) (w : ScanWork) : s.SameStanding (s.placeVisit w) :=
  .of_eq rfl rfl rfl rfl rfl rfl rfl

/-- One record changes, its place in the table kept. -/
theorem Standing.setPoint (h : s.Standing) {r : Point} (hr : r.InOrder) (hnext : r.next = (s.point n).next)
    (hseg : r.segments = (s.point n).segments) (hcauses : r.causes = (s.point n).causes)
    (hlevel : r.level = (s.point n).level) (hcls : r.cls = (s.point n).cls)
    (hdef : r.state.isDefined = (s.point n).state.isDefined) : (s.setPoint n r).Standing := by
  refine (StandingAs.setPoint h hr (fun _ => hnext) hseg hcauses fun _ => hlevel).mono fun m x => ?_
  unfold InUse
  rw [point_setPoint]
  split_ifs with hm
  · rw [← hm, hcls, hdef]
  · rfl

/-- The ruling of R62 counts PROBE down, or changes only requests. -/
theorem Standing.rule (h : s.Standing) (n : PointNo) : (s.rule n).Standing := by
  unfold State.rule
  dsimp only
  split_ifs with hflight hprobe
  · exact h.same s.sameStanding_scanFree
  · have hcounted : (s.setPoint n { s.point n with probe := (s.point n).probe - 1 }).Standing :=
      h.setPoint ((h.records n).countProbe hprobe.1) rfl rfl rfl rfl rfl rfl
    exact hcounted.same (sameStanding_scanFree _)
  · have hasked : s.SameStanding { s with scan := { s.scan with req := .requested } } :=
      .of_eq rfl rfl rfl rfl rfl rfl rfl
    exact h.same (hasked.trans (sameStanding_placeRequest _ _ _ _))

/-- The ruling leaves classes, sweep and SCAN_RUN, and the points in use. -/
theorem rule_keeps (s : State) (n : PointNo) : (∀ k, (s.rule n).classState k = s.classState k) ∧
    (s.rule n).scan.sweep = s.scan.sweep ∧ (s.rule n).scan.run = s.scan.run ∧
    ∀ m, ((s.rule n).point m).state = (s.point m).state ∧ ((s.rule n).point m).cls = (s.point m).cls := by
  unfold State.rule
  dsimp only
  split_ifs with hflight hprobe
  · exact ⟨fun _ => rfl, rfl, rfl, fun _ => ⟨rfl, rfl⟩⟩
  · refine ⟨fun _ => rfl, rfl, rfl, fun m => ?_⟩
    rw [show ((s.setPoint n _).scanFree).point m = (s.setPoint n _).point m from rfl, point_setPoint]
    split_ifs with hm
    · rw [← hm]
      exact ⟨rfl, rfl⟩
    · exact ⟨rfl, rfl⟩
  · rw [busOnly_placeRequest]
    exact ⟨fun _ => rfl, rfl, rfl, fun _ => ⟨rfl, rfl⟩⟩

/-- A visit of a pass moves the cursor to the next linked point (R63). -/
theorem Standing.visitPass (h : s.Standing) (c : ClassNo) : (s.visitPass c).Standing := by
  unfold State.visitPass
  split
  next => exact h.same s.sameStanding_scanFree
  next n hn =>
    obtain ⟨hclass, -, hrun, hpoint⟩ := s.rule_keeps n
    have huse : (s.rule n).InUse n (some c) := by
      unfold InUse
      rw [(hpoint n).1, (hpoint n).2]
      exact (h.links.2 c).2 n hn
    refine StandingAs.setClassState (h.rule n) rfl (fun m hm => ((h.rule n).links.mem_of_next huse hm).1) fun hr => ?_
    rw [hrun] at hr
    rw [h.cursor_none hr c] at hn
    exact absurd hn (by simp)

/-- The sweep takes another place or ends. -/
theorem Standing.setSweep (h : s.Standing) (k : Nat) {x : Option RegionNo} (hx : s.scan.run = false → x = none) :
    ({ s with scan := { s.scan with sweepCursor := k, sweep := x } } : State).Standing := by
  refine StandingAs.rescan h (fun _ => rfl) (fun _ => rfl) rfl (fun _ => rfl) h.links.2 fun hr => ?_
  exact ⟨hx hr, (h.scan hr).2⟩

theorem Standing.visitSweep (h : s.Standing) (r : RegionNo) : (s.visitSweep r).Standing := by
  unfold State.visitSweep
  split
  next => exact (h.same s.sameStanding_scanFree).setSweep _ fun _ => rfl
  next n _ =>
    refine (h.rule n).setSweep _ fun hr => ?_
    obtain ⟨-, hsweep, hrun, -⟩ := s.rule_keeps n
    rw [hrun] at hr
    rw [hsweep, (h.scan hr).1, ite_self]

theorem Standing.takeVisit (h : s.Standing) (w : ScanWork) : (s.takeVisit w).Standing := by
  cases w with
  | pass c => exact h.visitPass c
  | sweep r => exact h.visitSweep r

theorem Standing.chooseWork (h : s.Standing) (hr : s.scan.run = true) : s.chooseWork.Standing := by
  unfold State.chooseWork
  split
  · exact h.same (s.sameStanding_placeVisit _)
  · split
    next r _ =>
      have hflag : s.SameStanding (s.setPendingFlag r false) := .of_eq rfl rfl rfl rfl rfl rfl rfl
      have hstart := (h.same hflag).setSweep 0 (x := some r) fun e => by simp [hr] at e
      exact hstart.same (sameStanding_placeVisit _ _)
    next =>
      split
      · exact h.same (s.sameStanding_placeVisit _)
      · exact h

/-- A CONTROL write sets SCAN_RUN, or clears it and ends the work (R73, R74). -/
theorem Standing.writeScanRun (h : s.Standing) (on : Bool) : (s.writeScanRun on).Standing := by
  cases on with
  | true =>
    rw [writeScanRun_set]
    exact StandingAs.rescan h (fun _ => rfl) (fun _ => rfl) rfl (fun _ => rfl) h.links.2 fun hr => by simp at hr
  | false =>
    cases hr : s.scan.run with
    | false => rwa [writeScanRun_idle hr]
    | true =>
      rw [writeScanRun_clear hr]
      obtain ⟨q, e, hw⟩ := s.endWork.withdrawScan_eq
      rw [hw]
      have hended : ∀ k : ClassNo, (s.endWork.classState k).inPass = false ∧ (s.endWork.classState k).cursor = none :=
        fun k => by simp [State.endWork, classState, endPass]
      exact StandingAs.rescanQuiet h (fun _ => rfl) (fun _ => rfl) rfl (fun _ => rfl) hended rfl

/-! #### States with an empty table (R2, R14, R100, R148) -/

/-- A table with every point FREE, every chain and set empty and no pass in progress is in order. -/
theorem standing_of_empty (hp : ∀ m, t.point m = Point.free) (hc : ∀ x, t.chain x = Chain.empty)
    (hf : t.freeSegs = List.finRange 96) (hn : ∀ v, t.noticeSet v = [])
    (hk : ∀ k, (t.classState k).inPass = false ∧ (t.classState k).cursor = none) (hs : t.scan.sweep = none) :
    t.Standing where
  records m := hp m ▸ Point.inOrder_free
  pool := by
    refine ⟨hf ▸ List.pairwise_lt_finRange 96, fun g => ?_, fun a b g ha => ?_⟩
    · simp [hf, hp, Point.free]
    · simp [hp, Point.free] at ha
  notices := ⟨fun v => by simp [hn v], fun m v => by simp [hn v, hp, Point.free]⟩
  links := by
    refine ⟨fun x => ⟨[], ⟨by rw [hc]; rfl, List.nodup_nil, by rw [hc]; rfl, by rw [hc]; rfl⟩, fun m => ?_⟩, fun k => ?_⟩
    · simp [InUse, hp, Point.free, Health.isDefined]
    · obtain ⟨hpass, hcursor⟩ := hk k
      simp [hpass, hcursor]
  scan _ := ⟨hs, hk⟩

end State

end Sys2Proof.Machine

end

/-! ### Every event keeps the standing facts -/

section

namespace Sys2Proof.Machine.State

variable {s t : State} {n : PointNo} {p : Port} {c : Command}

/-! #### Slots and requests -/

theorem sameStanding_lastTaken (s : State) (r : Requester) : s.SameStanding { s with lastTaken := r } :=
  .of_eq rfl rfl rfl rfl rfl rfl rfl

theorem sameStanding_setPort (s : State) (p : Port) (x : PortState) : s.SameStanding (s.setPort p x) := by
  constructor <;> simp

theorem sameStanding_complete (s : State) (p : Port) (code : ResultCode) (a : Vector Word 64) :
    s.SameStanding (s.complete p code a) := s.sameStanding_setPort p _

theorem sameStanding_enterPhase (s : State) (p : Port) (ph : CmdPhase) : s.SameStanding (s.enterPhase p ph) := by
  constructor <;> simp

theorem sameStanding_requestAccess (s : State) (p : Port) (n : PointNo) (f : Bool) :
    s.SameStanding (s.requestAccess p n f) := by
  constructor <;> simp

theorem sameStanding_busIdle (s : State) : s.SameStanding s.busIdle := by
  constructor <;> simp

theorem sameStanding_finishWaitFree (s : State) (n : PointNo) (p : Port) : s.SameStanding (s.finishWaitFree n p) := by
  by_cases h : ∀ c k, s.busyWith p = some c → c.phase ≠ .waitFree n k
  · rw [finishWaitFree_of_ne h]
    exact .refl s
  · push Not at h
    obtain ⟨c, k, hc, hk⟩ := h
    rw [finishWaitFree_of_waits hc hk]
    exact s.sameStanding_complete p _ _

theorem sameStanding_afterDiscard (g : Grant) (owed : Bool) (s : State) (p : Port) :
    s.SameStanding (afterDiscard g owed s p) := by
  unfold afterDiscard
  dsimp only
  split_ifs
  · exact s.sameStanding_complete p _ _
  · exact s.sameStanding_requestAccess p _ _
  · exact s.sameStanding_enterPhase p _
  · exact s.sameStanding_requestAccess p _ _
  · exact .refl s

theorem sameStanding_afterCounted (g : Grant) (o : Outcome) (owed shared : Bool) (s : State) (p : Port) :
    s.SameStanding (afterCounted g o owed shared s p) := by
  unfold afterCounted
  dsimp only
  split_ifs
  · exact s.sameStanding_complete p _ _
  · exact s.sameStanding_requestAccess p _ _
  · exact s.sameStanding_requestAccess p _ _
  · exact .refl s

/-! #### Commands -/

theorem refusal_none_isDefined {holds : Bool} (h : s.refusal p n holds = none) : (s.point n).state.isDefined = true := by
  unfold refusal at h
  split_ifs at h with hd
  simpa using hd

theorem Standing.takeDefine (h : s.Standing) (p : Port) (c : Command) : (takeDefine p c s).Standing := by
  unfold State.takeDefine
  dsimp only
  split_ifs with hfree
  · split
    next d hd =>
      obtain ⟨hsound, hspace, -⟩ := checkDefinition_ok hd
      exact (h.defineCore hfree hsound (by simpa using hspace)).same (sameStanding_complete _ p _ _)
    next => exact h.same (s.sameStanding_complete p _ _)
  · exact h.same (s.sameStanding_complete p _ _)

theorem Standing.takeModify (h : s.Standing) (p : Port) (c : Command) : (takeModify p c s).Standing := by
  unfold State.takeModify
  dsimp only
  split
  next => exact h.same (s.sameStanding_complete p _ _)
  next hnone =>
    split
    next d hd =>
      obtain ⟨hsound, hspace, -⟩ := checkDefinition_ok hd
      exact (h.modifyCore (refusal_none_isDefined hnone) hsound hspace).same (sameStanding_complete _ p _ _)
    next => exact h.same (s.sameStanding_complete p _ _)

theorem Standing.takeRetire (h : s.Standing) (p : Port) (c : Command) : (takeRetire p c s).Standing := by
  unfold State.takeRetire
  dsimp only
  split
  next => exact h.same (s.sameStanding_complete p _ _)
  next hnone =>
    have hretired := h.retirePoint (refusal_none_isDefined hnone)
    split_ifs
    · exact hretired.same (sameStanding_complete _ p _ _)
    · exact hretired.same (sameStanding_enterPhase _ p _)

theorem Standing.takeHolder (h : s.Standing) (x : Option Port) (p : Port) (c : Command) :
    (takeHolder x p c s).Standing := by
  unfold State.takeHolder
  split
  next => exact h.same (s.sameStanding_complete p _ _)
  next hnone =>
    have hset := h.setPoint ((h.records _).setHolder (refusal_none_isDefined hnone) x) rfl rfl rfl rfl rfl rfl
    exact hset.same (sameStanding_complete _ p _ _)

theorem Standing.takeReadNow (h : s.Standing) (p : Port) (c : Command) : (takeReadNow p c s).Standing := by
  unfold State.takeReadNow
  dsimp only
  split
  next => exact h.same (s.sameStanding_complete p _ _)
  next =>
    split_ifs
    · exact h.same (s.sameStanding_requestAccess p _ _)
    · exact h.same (s.sameStanding_enterPhase p _)

theorem Standing.awaitWrite (h : s.Standing) (hd : (s.point n).state.isDefined = true) (p : Port) :
    (s.awaitWrite p n).Standing := by
  unfold State.awaitWrite
  dsimp only
  split_ifs with hflight hagain
  · exact h.same (s.sameStanding_requestAccess p _ _)
  · exact h.same (s.sameStanding_enterPhase p _)
  · have hset := h.setPoint ((h.records n).setWriteAgain hd hflight) rfl rfl rfl rfl rfl rfl
    exact hset.same (sameStanding_enterPhase _ p _)

theorem Standing.takeWrite (h : s.Standing) (p : Port) (c : Command) : (takeWrite p c s).Standing := by
  unfold State.takeWrite
  dsimp only
  split_ifs with hd
  · exact h.same (s.sameStanding_complete p _ _)
  · exact h.same (s.sameStanding_complete p _ _)
  · exact h.same (s.sameStanding_complete p _ _)
  · exact h.same (s.sameStanding_complete p _ _)
  · have hdef : (s.point (operandPoint c)).state.isDefined = true := by simpa using hd
    generalize mergeShadow _ _ _ = x
    refine Standing.awaitWrite (h.setPoint ((h.records _).setShadow hdef x) rfl rfl rfl rfl rfl rfl) ?_ p
    rw [point_setPoint_self]
    exact hdef

theorem sameStanding_takeSetRegion (p : Port) (c : Command) (s : State) : s.SameStanding (takeSetRegion p c s) := by
  unfold takeSetRegion
  split
  next u hu =>
    obtain ⟨r, -, rfl⟩ := storeRegion_ok hu
    have hset : s.SameStanding (s.setRegion r (Region.ofWords (paramWord c))) := .of_eq rfl rfl rfl rfl rfl rfl rfl
    exact hset.trans (sameStanding_complete _ p _ _)
  next => exact s.sameStanding_complete p _ _

theorem sameStanding_takeGetRegion (p : Port) (c : Command) (s : State) : s.SameStanding (takeGetRegion p c s) := by
  unfold takeGetRegion
  split_ifs
  · exact s.sameStanding_complete p _ _
  · exact s.sameStanding_complete p _ _

theorem sameStanding_takeSetClass (p : Port) (c : Command) (s : State) : s.SameStanding (takeSetClass p c s) := by
  unfold takeSetClass
  split_ifs
  · exact (s.sameStanding_restartClass _ _).trans (sameStanding_complete _ p _ _)
  · exact s.sameStanding_complete p _ _

theorem sameStanding_takeGetClass (p : Port) (c : Command) (s : State) : s.SameStanding (takeGetClass p c s) := by
  unfold takeGetClass
  split
  · exact s.sameStanding_complete p _ _
  · exact s.sameStanding_complete p _ _

/-- The points CLEAR_ALL retires. -/
def inUsePoints (s : State) : List PointNo := allPoints.filter fun n => (s.point n).state.isDefined

theorem mem_inUsePoints : n ∈ s.inUsePoints ↔ (s.point n).state.isDefined = true := by
  simp [inUsePoints, allPoints]

theorem nodup_inUsePoints (s : State) : s.inUsePoints.Nodup := (List.nodup_finRange 256).filter _

theorem Standing.takeClearAll (h : s.Standing) (p : Port) (c : Command) : (takeClearAll p c s).Standing := by
  have hretired : (s.inUsePoints.foldl State.retirePoint s).Standing :=
    h.foldl_retirePoint s.nodup_inUsePoints fun _ => mem_inUsePoints.mp
  unfold State.takeClearAll
  dsimp only
  split_ifs
  · exact h.same (s.sameStanding_complete p _ _)
  · split
    · exact hretired.same (sameStanding_enterPhase _ p _)
    · exact hretired.same (sameStanding_complete _ p _ _)

theorem Standing.commandAct (h : s.Standing) (name : CmdName) (p : Port) (c : Command) :
    (commandAct name p c s).Standing := by
  cases name with
  | define => exact h.takeDefine p c
  | modify => exact h.takeModify p c
  | retire => exact h.takeRetire p c
  | hold => exact h.takeHolder (some p) p c
  | release => exact h.takeHolder none p c
  | read => exact h.same (s.sameStanding_complete p _ _)
  | readNow => exact h.takeReadNow p c
  | write => exact h.takeWrite p c
  | setRegion => exact h.same (sameStanding_takeSetRegion p c s)
  | getRegion => exact h.same (sameStanding_takeGetRegion p c s)
  | setClass => exact h.same (sameStanding_takeSetClass p c s)
  | getClass => exact h.same (sameStanding_takeGetClass p c s)
  | clearAll => exact h.takeClearAll p c
  | dismiss => exact h
  | unknown => exact h.same (s.sameStanding_complete p _ _)

/-! #### Accesses -/

theorem sameStanding_of_busOnly (h : s.BusOnly t) : s.SameStanding t := by
  rw [h]
  exact .of_eq rfl rfl rfl rfl rfl rfl rfl

theorem sameStanding_tellWithdrawn (s : State) (g : Grant) : s.SameStanding (s.tellWithdrawn g) := by
  unfold tellWithdrawn
  split
  · exact s.sameStanding_scanFree
  · exact .refl s

theorem sameStanding_tellStarted (s : State) (g : Grant) : s.SameStanding (s.tellStarted g) := by
  unfold tellStarted
  split
  · exact s.sameStanding_scanFree
  · split_ifs
    · exact s.sameStanding_enterPhase _ _
    · exact .refl s

theorem inFlightOf_ne (k : AccessKind) : inFlightOf k ≠ .none := by
  unfold inFlightOf
  split_ifs <;> simp

/-- The start of an access sets IN_FLIGHT of its point (R24). -/
theorem Standing.takeStart (h : s.Standing) (g : Grant) : (s.takeStart g).Standing := by
  unfold State.takeStart
  dsimp only
  split_ifs with hfree hregion hprotected
  · exact h.same ((s.sameStanding_tellWithdrawn g).trans (sameStanding_busIdle _))
  all_goals
    have hset := h.setPoint ((h.records g.point).setFlight
      (inFlightOf_ne (s.accessOf (s.point g.point)).kind) hfree) rfl rfl rfl rfl rfl rfl
    have hstarted := hset.same (sameStanding_tellStarted _ g)
  · exact hstarted.same (sameStanding_of_busOnly (busOnly_reportAccess _ _ _ _))
  · exact hstarted.same (sameStanding_of_busOnly (busOnly_reportAccess _ _ _ _))
  · exact hstarted.same (sameStanding_of_busOnly (busOnly_nextBeat _ _ _))

theorem Standing.completeRetiring (h : s.Standing) (hn : (s.point n).state = .retiring) :
    (s.completeRetiring n).Standing := by
  have hout : ∀ x, ¬ s.InUse n x := fun x hx => by simpa [hn, Health.isDefined] using hx.1
  have hfreed : (s.freePoint n).Standing := by
    refine (StandingAs.freePoint h hout).mono fun m x => ?_
    unfold InUse
    rw [point_freePoint]
    split_ifs with hm
    · subst hm
      simp [hn, Point.free, Health.isDefined]
    · rfl
  exact hfreed.same ((sameStanding_finishWaitFree _ n _).trans (sameStanding_finishWaitFree _ n _))

theorem Standing.discardCompletion (h : s.Standing) {g : Grant} (hr : (s.point g.point).state ≠ .retiring)
    (hd : (s.point g.point).redefined = true) : (s.discardCompletion g).Standing := by
  obtain ⟨-, hflags, hfree⟩ := (h.records g.point).flight
  have hdef : (s.point g.point).state.isDefined = true :=
    Health.isDefined_iff.mpr ⟨fun hf => hflags (.inl hd) (hfree hf), hr⟩
  have hset := h.setPoint ((h.records g.point).clearFlight hdef) rfl rfl rfl rfl rfl rfl
  exact hset.same ((sameStanding_afterDiscard g _ _ _).trans (sameStanding_afterDiscard g _ _ _))

theorem Standing.afterJudging (h : s.Standing) (hd : (s.point n).state.isDefined = true)
    (hr : (s.point n).redefined = false) (c : Completion) : (s.afterJudging n c).Standing := by
  obtain ⟨ws, hws⟩ := s.commitCompletion_eq (s.point n) c
  have hcommitted : s.SameStanding (s.commitCompletion (s.point n) c) := by
    rw [hws]
    exact .of_eq rfl rfl rfl rfl rfl rfl rfl
  obtain ⟨hcauses, -, hlevel⟩ := judge_keeps (s.point n) (s.blockWords (s.point n)) c
  obtain ⟨hnext, hsegs, hcls, hdef⟩ := judge_keepsDefinition (s.point n) (s.blockWords (s.point n)) c
  have hpoint := hcommitted.points n
  have hset := (h.same hcommitted).setPoint (n := n) ((h.records n).judged hd hr (s.blockWords (s.point n)) c)
    (by rw [hpoint]; exact hnext) (by rw [hpoint]; exact hsegs) (by rw [hpoint]; exact hcauses)
    (by rw [hpoint]; exact hlevel) (by rw [hpoint]; exact hcls) (by rw [hpoint, hd]; exact hdef hd)
  refine (StandingAs.setCauses hset n fun _ => ?_).mono fun m x => ?_
  · rw [point_setPoint_self]
    exact hdef hd
  · unfold InUse
    rw [show (State.afterJudging s n c).point m = (addCauses _ n _).point m from rfl, addCauses, point_setCauses]
    split_ifs <;> rfl

theorem Standing.takeCompletion (h : s.Standing) (ha : s.AccessAgrees) {g : Grant} {c : Completion}
    (hn : s.NextCompletion g c) : (s.takeCompletion g c).Standing := by
  obtain ⟨⟨a, hphase⟩, -⟩ := hn
  have hflight : (s.point g.point).inFlight ≠ .none := (ha g.point).mpr (by rw [accessPoint, hphase])
  unfold State.takeCompletion
  dsimp only
  refine Standing.same ?_ (sameStanding_busIdle _)
  split_ifs with hret hred
  · exact h.completeRetiring hret
  · exact h.discardCompletion hret hred
  · have hdef : (s.point g.point).state.isDefined = true :=
      Health.isDefined_iff.mpr ⟨fun hf => hflight ((h.records g.point).flight.2.2 hf), hret⟩
    rw [countCompletion_eq]
    exact (h.afterJudging hdef (by simpa using hred) c).same
      ((sameStanding_afterCounted g _ _ _ _ _).trans (sameStanding_afterCounted g _ _ _ _ _))

/-! #### Causes taken back (R154, R158) -/

theorem Standing.setCauses (h : s.Standing) {b : Byte} (hb : b ≠ 0 → (s.point n).causes ≠ 0) :
    (s.setCauses n b).Standing := by
  refine (StandingAs.setCauses h n fun hne => (h.records n).isDefined_of_causes (hb hne)).mono fun m x => ?_
  unfold InUse
  rw [point_setCauses]
  split_ifs <;> rfl

theorem Standing.writeAck (h : s.Standing) (w : Word) : (writeAck w s).Standing := by
  refine h.setCauses fun hne hzero => hne ?_
  rw [hzero]
  exact BitVec.zero_and

theorem Standing.takeClaim (h : s.Standing) (p : Port) : (takeClaim p s).2.Standing := by
  unfold State.takeClaim
  split
  · dsimp only
    split_ifs
    · exact h.same (s.sameStanding_setPort p _)
    · exact (h.same (s.sameStanding_setPort p _)).setCauses fun hne => absurd rfl hne
  · exact h.same (s.sameStanding_setPort p _)

/-! #### The warm reset (R13) -/

/-- The free list with the segments of the RETIRING records. -/
theorem foldl_returnRetiring (rs : List Point) {s t : State} (hs : s.freeSegs.Pairwise (· < ·))
    (ht : t = rs.foldl (fun t r => if r.state = .retiring then t.returnSegments r.segments else t) s) :
    t.freeSegs.Pairwise (· < ·) ∧
      ∀ g, g ∈ t.freeSegs ↔ g ∈ s.freeSegs ∨ ∃ r ∈ rs, r.state = .retiring ∧ g ∈ r.segments := by
  induction rs generalizing s with
  | nil => simp [ht, hs]
  | cons r rs ih =>
    rw [List.foldl_cons] at ht
    split_ifs at ht with hr
    · obtain ⟨hasc, hmem⟩ := returned_returnSegments hs r.segments
      obtain ⟨hasc', hmem'⟩ := ih hasc ht
      refine ⟨hasc', fun g => ?_⟩
      rw [hmem', hmem]
      simp [hr, or_assoc]
    · obtain ⟨hasc', hmem'⟩ := ih hs ht
      refine ⟨hasc', fun g => ?_⟩
      rw [hmem']
      simp [hr]

/-- The segments of the RETIRING points are on the free list after a warm reset, with those that were (R13). -/
theorem freeSegs_returnRetiring (hs : s.freeSegs.Pairwise (· < ·)) :
    s.returnRetiring.freeSegs.Pairwise (· < ·) ∧ ∀ g, g ∈ s.returnRetiring.freeSegs ↔
      g ∈ s.freeSegs ∨ ∃ n, (s.point n).state = .retiring ∧ g ∈ (s.point n).segments := by
  obtain ⟨hasc, hmem⟩ := foldl_returnRetiring s.points.toList hs rfl
  refine ⟨hasc, fun g => (hmem g).trans (or_congr_right ⟨?_, ?_⟩)⟩
  · rintro ⟨r, hr, hret⟩
    obtain ⟨i, hi, rfl⟩ := Vector.mem_iff_getElem.mp (Vector.mem_toList_iff.mp hr)
    exact ⟨⟨i, hi⟩, hret⟩
  · rintro ⟨n, hret⟩
    exact ⟨s.point n, Vector.mem_toList_iff.mpr (Vector.getElem_mem n.isLt), hret⟩

theorem point_warmReset (s : State) (n : PointNo) : s.warmReset.point n = (s.point n).warm := by
  rw [warmReset_eq]
  simp [point]

theorem classState_warmReset (s : State) (k : ClassNo) : s.warmReset.classState k = endPass (s.classState k) := by
  rw [warmReset_eq]
  simp [classState, Scan.warm]

theorem noticeSet_warmReset (s : State) (v : Level) : s.warmReset.noticeSet v = [] := by
  rw [warmReset_eq]
  simp [noticeSet]

theorem freeSegs_warmReset (s : State) : s.warmReset.freeSegs = s.returnRetiring.freeSegs := by
  rw [warmReset_eq]

/-- A warm reset leaves a point in use in use, with its CLASS and NEXT. -/
theorem Point.isDefined_warm {r : Point} : r.warm.state.isDefined = r.state.isDefined := by
  unfold Point.warm
  split_ifs with h
  · simp [h, Point.free, Health.isDefined]
  · rfl

theorem PoolDivided.warmReset (h : s.PoolDivided) : s.warmReset.PoolDivided := by
  obtain ⟨hasc, hfree, hone⟩ := h
  obtain ⟨hasc', hmem⟩ := freeSegs_returnRetiring hasc
  have hsegs : ∀ m g, g ∈ (s.warmReset.point m).segments ↔
      (s.point m).state ≠ .retiring ∧ g ∈ (s.point m).segments := fun m g => by
    rw [point_warmReset, Point.warm]
    split_ifs with hr
    · simp [Point.free, hr]
    · simp [hr]
  rw [← freeSegs_warmReset] at hasc' hmem
  refine ⟨hasc', fun g => ?_, fun a b g ha hb => ?_⟩
  · rw [hmem, hfree]
    simp only [hsegs]
    constructor
    · rintro (hnone | ⟨n, hret, hg⟩) m ⟨hm, hgm⟩
      · exact hnone m hgm
      · exact hm (hone n m g hg hgm ▸ hret)
    · intro hnone
      by_cases hex : ∃ n, g ∈ (s.point n).segments
      · obtain ⟨n, hg⟩ := hex
        exact .inr ⟨n, by by_contra hr; exact hnone n ⟨hr, hg⟩, hg⟩
      · exact .inl fun n hg => hex ⟨n, hg⟩
  · exact hone a b g ((hsegs a g).mp ha).2 ((hsegs b g).mp hb).2

theorem Standing.warmReset (h : s.Standing) : s.warmReset.Standing := by
  have hcauses : ∀ m, (s.warmReset.point m).causes = 0 := fun m => by
    rw [point_warmReset, Point.warm]
    split_ifs <;> rfl
  have hquiet : ∀ k, (s.warmReset.classState k).inPass = false ∧ (s.warmReset.classState k).cursor = none := fun k => by
    rw [classState_warmReset]
    exact ⟨rfl, rfl⟩
  have hkept : ∀ m x, s.warmReset.InUse m x ↔ s.InUse m x := fun m x => by
    unfold InUse
    rw [point_warmReset, Point.isDefined_warm]
    refine and_congr_right fun hd => ?_
    rw [Point.warm, if_neg (Health.isDefined_iff.mp hd).2]
  exact
    { records := fun m => by
        rw [point_warmReset]
        exact (h.records m).warm
      pool := h.pool.warmReset
      notices := ⟨fun v => by rw [noticeSet_warmReset]; exact .nil, fun m v => by
        rw [noticeSet_warmReset]
        simp [hcauses]⟩
      links := by
        refine LinkedAs.mono ?_ fun m x => (hkept m x).symm
        refine ⟨fun x => ?_, fun k => ?_⟩
        · obtain ⟨l, hl, hmem⟩ := h.links.1 x
          refine ⟨l, hl.congr (by rw [warmReset_eq]; rfl) fun m hm => ?_, hmem⟩
          rw [point_warmReset, Point.warm, if_neg (Health.isDefined_iff.mp ((hmem m).mp hm).1).2]
        · obtain ⟨hpass, hcursor⟩ := hquiet k
          simp [hpass, hcursor]
      scan := fun _ => ⟨by rw [warmReset_eq]; rfl, hquiet⟩ }

end Sys2Proof.Machine.State

end

/-! ### The standing facts from event to event -/

section

namespace Sys2Proof.Machine.State

variable {s t : State} {p : Port}

/-! #### Peripheral events -/

/-- A pin event touches the lines and the pending flags only (R141 to R144). -/
theorem takeAtn_eq (s : State) (l : LineNo) (high : Bool) :
    ∃ ls fs, s.takeAtn l high = { s with lines := ls, scan := { s.scan with pendingFlags := fs } } := by
  unfold takeAtn
  dsimp only
  split_ifs
  · exact ⟨_, _, rfl⟩
  · exact ⟨_, _, rfl⟩
  · exact ⟨_, _, rfl⟩
  · obtain ⟨fs, h⟩ := s.keepFlag_scan l
    obtain ⟨fs', h'⟩ := ((s.keepFlag l).setLine l { s.line l with live := high }).keepFlag_scan l
    rw [h', h]
    exact ⟨_, _, rfl⟩

theorem takeCommandByte_eq (s : State) (b : Byte) : ∃ x y, s.takeCommandByte b = { s with spi := x, sdo := y } := by
  unfold takeCommandByte
  split <;> exact ⟨_, _, rfl⟩

theorem takePointer_eq (s : State) (target : BitVec 7) (b : Byte) :
    ∃ x y, s.takePointer target b = { s with pointer := x, i2cWriteOpen := y } := by
  unfold takePointer
  split_ifs <;> exact ⟨_, _, rfl⟩

theorem sameStanding_closeWrite (s : State) (v : Via) : s.SameStanding (s.closeWrite v) := by
  cases v with
  | spi => exact .refl s
  | i2c => exact .of_eq rfl rfl rfl rfl rfl rfl rfl

theorem sameStanding_send (s : State) (p : Port) (w : Word) : s.SameStanding (s.send p w) := by
  constructor <;> simp

/-! #### Register writes -/

theorem Standing.applyControl (h : s.Standing) (p : Port) (w : Word) : (s.applyControl p w).Standing := by
  have hnotify : ∀ (u : State) (on : Bool), u.SameStanding (u.writeNotifyEn on) := fun u on =>
    .of_eq rfl rfl rfl rfl rfl rfl rfl
  exact (h.writeScanRun _).same ((hnotify _ _).trans (sameStanding_setPort _ p _))

theorem Standing.written (h : s.Standing) (hw : s.Written p t) : t.Standing := by
  cases hw with
  | ignored => exact h
  | port x => exact h.same (s.sameStanding_setPort p x)
  | status w =>
    obtain ⟨e, y, z, he⟩ := s.writeStatus_eq p w
    rw [he]
    exact h.same (.of_eq rfl rfl rfl rfl rfl rfl rfl)
  | control w =>
    by_cases hw : p = .primary ∧ flag w 15 = true
    · rw [writeControl_of_warm hw]
      exact h.warmReset
    · rw [writeControl_of_not_warm hw]
      exact h.applyControl p w
  | levels => exact h.same (.of_eq rfl rfl rfl rfl rfl rfl rfl)
  | order lo hi =>
    obtain ⟨o, e, he⟩ := s.installOrder_eq lo hi
    rw [he]
    exact h.same (.of_eq rfl rfl rfl rfl rfl rfl rfl)
  | ack w => exact h.writeAck w
  | lines => exact h.same (.of_eq rfl rfl rfl rfl rfl rfl rfl)
  | overruns w =>
    exact h.same ((((s.sameStanding_clearOverrun w 0).trans (sameStanding_clearOverrun _ w 1)).trans
      (sameStanding_clearOverrun _ w 2)).trans (sameStanding_clearOverrun _ w 3))

/-! #### The loader -/

theorem sameStanding_installOrder (s : State) (lo hi : Word) : s.SameStanding (s.installOrder lo hi) := by
  obtain ⟨o, e, he⟩ := s.installOrder_eq lo hi
  rw [he]
  exact .of_eq rfl rfl rfl rfl rfl rfl rfl

theorem sameStanding_applyHeader (s : State) (ws : List Word) : s.SameStanding (s.applyHeader ws) := by
  have hclasses : ∀ w, s.SameStanding (s.restartClasses w) := fun w =>
    (((s.sameStanding_restartClass 0 _).trans (sameStanding_restartClass _ 1 _)).trans
      (sameStanding_restartClass _ 2 _)).trans (sameStanding_restartClass _ 3 _)
  have hlevels : ∀ (u : State) w, u.SameStanding { u with notify := headerNotify u.notify w } := fun u w =>
    .of_eq rfl rfl rfl rfl rfl rfl rfl
  have hflags : ∀ (u : State) w, u.SameStanding (u.keepStartFlags w) := fun u w => .of_eq rfl rfl rfl rfl rfl rfl rfl
  rw [applyHeader_parts]
  exact (((hclasses _).trans (hlevels _ _)).trans (sameStanding_installOrder _ _ _)).trans (hflags _ _)

theorem sameStanding_loader (s : State) (l : Loader) : s.SameStanding { s with loader := l } :=
  .of_eq rfl rfl rfl rfl rfl rfl rfl

theorem sameStanding_addSum (s : State) (ws : List Word) : s.SameStanding (s.addSum ws) := s.sameStanding_loader _

theorem Standing.applyPointRecord (h : s.Standing) (ws : List Word) : (s.applyPointRecord ws).Standing := by
  obtain ⟨l, hl⟩ | ⟨n, d, l, raw, hfree, hd, hl⟩ := s.applyPointRecord_cases ws
  · rw [hl]
    exact h.same (s.sameStanding_loader l)
  · obtain ⟨hsound, hspace, -⟩ := checkDefinition_ok hd
    rw [hl]
    exact (h.defineCore hfree hsound (by simpa using hspace)).same (sameStanding_loader _ l)

/-- What a load set is undone with the scan engine idle (R55, R181). -/
theorem Standing.undoLoad (h : s.Standing) (hr : s.scan.run = false) : s.undoLoad.Standing := by
  obtain ⟨hsweep, hquiet⟩ := h.scan hr
  have hclass : ∀ k, s.undoLoad.classState k = stopClass (s.classState k) := fun k => by
    simp [State.undoLoad, failLoading, endLoading, classState]
  refine standing_of_empty (fun m => ?_) (fun x => ?_) rfl (fun v => ?_) (fun k => ?_) hsweep
  · simp [State.undoLoad, failLoading, endLoading, point]
  · simp [State.undoLoad, failLoading, endLoading, chain]
  · simp [State.undoLoad, failLoading, endLoading, noticeSet]
  · rw [hclass]
    exact hquiet k

theorem Standing.completeLoading (h : s.Standing) : s.completeLoading.Standing := by
  have hended : s.SameStanding s.endLoading := .of_eq rfl rfl rfl rfl rfl rfl rfl
  have hnotify : ∀ (u : State) (on : Bool), u.SameStanding (u.writeNotifyEn on) := fun u on =>
    .of_eq rfl rfl rfl rfl rfl rfl rfl
  exact ((h.same hended).writeScanRun _).same (hnotify _ _)

theorem Standing.judgeSum (h : s.Standing) (hr : s.scan.run = false) (ws : List Word) : (s.judgeSum ws).Standing := by
  unfold State.judgeSum
  split_ifs
  · exact h.completeLoading
  · exact h.undoLoad hr

theorem standing_coldReset (s : State) (madrHigh scsLow : Bool) : (s.coldReset madrHigh scsLow).Standing :=
  standing_of_empty point_reset chain_reset rfl noticeSet_reset
    (fun k => by
      rw [show (s.coldReset madrHigh scsLow).classState k = State.reset.classState k from rfl, classState_reset]
      exact ⟨rfl, rfl⟩) rfl

/-! #### Every event -/

theorem loading_of_apply (h : s.loader.state = .apply) : s.loading = true := by rw [loading, h]; rfl

theorem timerRuns_run {c : ClassNo} (h : s.expiryDue c = true) : s.scan.run = true := by
  simp only [expiryDue, timerRuns, Bool.and_eq_true] at h
  exact h.1.1.1

/-- Every event keeps the standing facts of the table; IN_FLIGHT agrees with the engine, and SCAN_RUN is clear while
LOADING. -/
theorem Effect.standing (h : s.Effect t) (hs : s.Standing) (ha : s.AccessAgrees)
    (hl : s.loading = true → s.scan.run = false) : t.Standing := by
  cases h with
  | nothing => exact hs
  | command p name c => exact (hs.same (s.sameStanding_lastTaken _)).commandAct name p c
  | start g => exact hs.takeStart g
  | backN => exact hs.same (.of_eq rfl rfl rfl rfl rfl rfl rfl)
  | beatReleased => exact hs.same (.of_eq rfl rfl rfl rfl rfl rfl rfl)
  | beatEnded b g a bd =>
    have hlevel : s.SameStanding { s with backAsserted := b } := .of_eq rfl rfl rfl rfl rfl rfl rfl
    exact hs.same (hlevel.trans (sameStanding_of_busOnly (busOnly_endBeat _ g a bd)))
  | timeout g a => exact hs.same (sameStanding_of_busOnly (s.busOnly_reportAccess g a .timeout))
  | completion g c h => exact hs.takeCompletion ha h
  | clk k => exact hs.runClk k
  | expiry c h => exact hs.takeExpiry (timerRuns_run h) c
  | choice h =>
    simp only [mayChoose, Bool.and_eq_true] at h
    exact hs.chooseWork h.1.2
  | visit w => exact (hs.same (s.sameStanding_lastTaken _)).takeVisit w
  | atn l high =>
    obtain ⟨_, _, he⟩ := s.takeAtn_eq l high
    rw [he]
    exact hs.same (.of_eq rfl rfl rfl rfl rfl rfl rfl)
  | flagSetAgain l =>
    obtain ⟨_, he⟩ := s.keepFlag_scan l
    rw [he]
    exact hs.same (.of_eq rfl rfl rfl rfl rfl rfl rfl)
  | write p addr w => exact hs.written (s.written_writeAny p addr w)
  | readHeld v => exact hs.same ((s.sameStanding_closeWrite v).trans (sameStanding_send _ _ _))
  | claim v => exact ((hs.same (s.sameStanding_closeWrite v)).takeClaim _).same (sameStanding_send _ _ _)
  | blkDataRead v =>
    exact hs.same (((s.sameStanding_closeWrite v).trans (sameStanding_setPort _ _ _)).trans (sameStanding_send _ _ _))
  | commandByte b =>
    obtain ⟨_, _, he⟩ := s.takeCommandByte_eq b
    rw [he]
    exact hs.same (.of_eq rfl rfl rfl rfl rfl rfl rfl)
  | transferEnd => exact hs.same (.of_eq rfl rfl rfl rfl rfl rfl rfl)
  | pointer target b =>
    obtain ⟨_, _, he⟩ := s.takePointer_eq target b
    rw [he]
    exact hs.same (.of_eq rfl rfl rfl rfl rfl rfl rfl)
  | coldReset m c => exact s.standing_coldReset m c
  | verdict v =>
    obtain ⟨_, _, he⟩ := s.takeVerdict_eq v
    rw [he]
    exact hs.same (.of_eq rfl rfl rfl rfl rfl rfl rfl)
  | undone h => exact hs.undoLoad (hl (loading_of_apply h))
  | header ws => exact hs.same ((s.sameStanding_addSum ws).trans (sameStanding_applyHeader _ ws))
  | regionRecord ws =>
    obtain ⟨_, _, he⟩ := (s.addSum ws).applyRegionRecord_eq ws
    rw [he]
    exact hs.same (.of_eq rfl rfl rfl rfl rfl rfl rfl)
  | pointRecord ws => exact (hs.same (s.sameStanding_addSum ws)).applyPointRecord ws
  | checksum ws h => exact (hs.same (s.sameStanding_addSum ws)).judgeSum (hl (loading_of_apply h)) ws

/-- The standing facts in the two groups in which they are proved here. -/
theorem Standing.consistent (hs : s.Standing) (ha : s.AccessAgrees) (hl : s.LoadingQuiet) (ho : s.OrderAgrees)
    (he : s.EngineAgrees) : s.Consistent :=
  ⟨hs.notices, hs.recordsQuiet, hs.healthAgrees, hs.flightAgrees ha, hs.poolAgrees, hs.chainsAgree, hs.cursorsAgree,
    hs.scan, hl, ho, he⟩

/-- The queue is not among what the standing facts look at. -/
theorem Consistent.setPending (h : s.Consistent) (q : List Instr) : ({ s with pending := q } : State).Consistent := by
  have hs : ({ s with pending := q } : State).Standing := h.standing.same (.of_eq rfl rfl rfl rfl rfl rfl rfl)
  exact hs.consistent h.accessAgrees h.load h.order h.engine

theorem Consistent.quietLoad (h : s.Consistent) (hl : s.loading = true) : s.scan.run = false := by
  obtain ⟨-, -, -, hr, -⟩ := h.load hl
  exact hr

/-- A step from a consistent state is an effect on a consistent state, or none at all. -/
theorem effect_of_step (hs : s.Consistent) (h : step s = .next t) : ∃ u : State, u.Consistent ∧ u.Effect t := by
  unfold step at h
  split at h
  · obtain rfl : s = t := Host.Outcome.next.inj h
    exact ⟨s, hs, .nothing⟩
  · exact ⟨_, hs.setPending _, effect_of_exec h⟩

theorem Consistent.standing_step (hs : s.Consistent) (h : step s = .next t) : t.Standing := by
  obtain ⟨u, hu, he⟩ := effect_of_step hs h
  exact he.standing hu.standing hu.accessAgrees hu.quietLoad

end Sys2Proof.Machine.State

namespace Sys2Proof.Machine

/-- Settles O9: `Standing` is kept by every effect. -/
theorem stepKeepsHealth : Obligations.StepKeepsHealth := fun _ _ hs h => (hs.standing_step h).healthAgrees

/-- Settles O10: `Standing` is kept by every effect. -/
theorem stepKeepsThePool : Obligations.StepKeepsThePool := fun _ _ hs h => (hs.standing_step h).poolAgrees

/-- Settles O11: `Standing` is kept by every effect. -/
theorem stepKeepsTheChains : Obligations.StepKeepsTheChains := fun _ _ hs h => (hs.standing_step h).chainsAgree

end Sys2Proof.Machine

end

/-! ### IN_FLIGHT and the requests agree with the engine from event to event -/

section

namespace Sys2Proof.Machine.State

variable {s t u : State} {n : PointNo} {p : Port} {g : Grant} {a : Access}

/-- IN_FLIGHT agrees with the engine's access (R24), and an IDLE engine has nothing waiting (R123). -/
def EngineSound (s : State) : Prop := s.AccessAgrees ∧ s.EngineAgrees

/-- From `s` to `t` no access starts or ends, and an IDLE engine with nothing waiting stays without. -/
structure EngineStep (s t : State) : Prop where
  flight : ∀ n, (t.point n).inFlight = (s.point n).inFlight
  access : t.accessPoint = s.accessPoint
  engine : s.EngineAgrees → t.EngineAgrees

theorem EngineStep.sound (h : s.EngineStep t) (hs : s.EngineSound) : t.EngineSound :=
  ⟨fun n => by rw [h.flight, h.access]; exact hs.1 n, h.engine hs.2⟩

theorem EngineStep.trans (h : s.EngineStep t) (h' : t.EngineStep u) : s.EngineStep u where
  flight n := (h'.flight n).trans (h.flight n)
  access := h'.access.trans h.access
  engine hs := h'.engine (h.engine hs)

/-- The records may change but for IN_FLIGHT, and the engine stands. -/
theorem EngineStep.of_bus (hp : ∀ n, (t.point n).inFlight = (s.point n).inFlight) (hb : t.bus.phase = s.bus.phase)
    (he : ∀ r, s.entry r = none → t.entry r = none) : s.EngineStep t where
  flight := hp
  access := by rw [accessPoint, accessPoint, hb]
  engine hs hi r := he r (hs (hb ▸ hi) r)

theorem EngineStep.of_eq (hp : ∀ n, (t.point n).inFlight = (s.point n).inFlight) (hb : t.bus = s.bus) :
    s.EngineStep t := .of_bus hp (by rw [hb]) fun r hr => by
  rw [← hr]
  unfold entry
  rw [hb]

theorem EngineStep.refl (s : State) : s.EngineStep s := .of_eq (fun _ => rfl) rfl

/-! #### Requests and grants -/

/-- An engine that has looked for its next request has nothing waiting when it is still IDLE (R123). -/
theorem engineAgrees_grantNext (s : State) : s.grantNext.EngineAgrees := by
  cases hp : s.bus.phase with
  | granted | running | reporting =>
    rw [grantNext_busy s (by simp [hp])]
    intro hi
    simp [hp] at hi
  | idle =>
    unfold grantNext
    rw [hp]
    dsimp only
    split
    next r hr =>
      split
      next q hq =>
        intro hi
        exact absurd hi (by simp [grantTo])
      next hq =>
        have hsome := List.find?_some hr
        simp [hq] at hsome
    next hnone =>
      intro _ r
      rw [List.find?_eq_none] at hnone
      have hmem : r ∈ rotationAfter s.bus.lastGranted := by
        cases s.bus.lastGranted with
        | scan => rcases r with _ | (_ | _) <;> simp [rotationAfter]
        | slot q => cases q <;> rcases r with _ | (_ | _) <;> simp [rotationAfter]
      simpa using hnone r hmem

theorem accessPoint_grantNext (s : State) : s.grantNext.accessPoint = s.accessPoint := by
  cases hp : s.bus.phase with
  | granted | running | reporting => rw [grantNext_busy s (by simp [hp])]
  | idle =>
    unfold grantNext
    rw [hp]
    dsimp only
    split
    · split
      · simp [grantTo, accessPoint, hp]
      · rfl
    · rfl

theorem phase_setEntry (s : State) (r : Requester) (q : Option Request) : (s.setEntry r q).bus.phase = s.bus.phase := by
  rcases r with _ | (_ | _) <;> rfl

theorem engineStep_placeRequest (s : State) (r : Requester) (n : PointNo) (f : Bool) :
    s.EngineStep (s.placeRequest r n f) where
  flight m := by simp
  access := by
    rw [placeRequest, accessPoint_grantNext, accessPoint, accessPoint, phase_setEntry]
  engine _ := engineAgrees_grantNext _

theorem engineStep_enterPhase (s : State) (p : Port) (ph : CmdPhase) : s.EngineStep (s.enterPhase p ph) :=
  .of_eq (by simp) (by simp)

theorem engineStep_requestAccess (s : State) (p : Port) (n : PointNo) (f : Bool) :
    s.EngineStep (s.requestAccess p n f) :=
  (s.engineStep_enterPhase p _).trans (engineStep_placeRequest _ _ _ _)

theorem engineStep_complete (s : State) (p : Port) (code : ResultCode) (x : Vector Word 64) :
    s.EngineStep (s.complete p code x) := .of_eq (by simp) (by simp)

/-- Giving up an access leaves the access itself to go on (R32, R124). -/
theorem abandonAccess_eq (s : State) (p : Port) :
    s.abandonAccess p = (s.setEntry (.slot p) none).setPhase (orphaned p s.bus.phase) := by
  have hsame : (s.setEntry (.slot p) none).setPhase s.bus.phase = s.setEntry (.slot p) none := by cases p <;> rfl
  unfold abandonAccess
  dsimp only
  rw [phase_setEntry]
  cases hp : s.bus.phase with
  | idle => rw [← hsame, hp]; rfl
  | granted | running | reporting => rfl

theorem engineStep_abandonAccess (s : State) (p : Port) : s.EngineStep (s.abandonAccess p) where
  flight m := by simp
  access := by
    rw [abandonAccess_eq, accessPoint, accessPoint, phase_setPhase]
    cases s.bus.phase with
    | idle | granted => rfl
    | running g | reporting g =>
      dsimp only [orphaned, orphanGrant]
      split_ifs <;> rfl
  engine hs hi r := by
    rw [abandonAccess_eq, phase_setPhase] at hi
    have hidle : s.bus.phase = .idle := by
      cases hp : s.bus.phase with
      | idle => rfl
      | granted | running | reporting => simp [hp, orphaned] at hi
    rw [abandonAccess_eq, show ∀ (x : State) y, (x.setPhase y).entry r = x.entry r from fun _ _ => by
      rcases r with _ | (_ | _) <;> rfl]
    by_cases hr : .slot p = r
    · rw [← hr, entry_setEntry_self]
    · rw [entry_setEntry_ne _ hr]
      exact hs hidle r

/-! #### Operations on the table -/

/-- From `s` to `t` only records, chains, the pool, the passes and the notice sets have changed. -/
def CoreFrame (s t : State) : Prop := t = { s with
  points := t.points, chains := t.chains, freeSegs := t.freeSegs, segWords := t.segWords
  scan := { s.scan with classes := t.scan.classes }, notify := { s.notify with sets := t.notify.sets } }

theorem CoreFrame.refl (s : State) : s.CoreFrame s := rfl

theorem CoreFrame.trans (h : s.CoreFrame t) (h' : t.CoreFrame u) : s.CoreFrame u := by
  unfold CoreFrame at *
  rw [h', h]

theorem CoreFrame.bus (h : s.CoreFrame t) : t.bus = s.bus := by rw [h]

theorem CoreFrame.port (h : s.CoreFrame t) (p : Port) : t.port p = s.port p := by
  rw [h]
  rfl

theorem coreFrame_setPoint (s : State) (n : PointNo) (r : Point) : s.CoreFrame (s.setPoint n r) := rfl

theorem coreFrame_setNext (s : State) (n : PointNo) (k : Option PointNo) : s.CoreFrame (s.setNext n k) := rfl

theorem coreFrame_setChain (s : State) (c : ClassSel) (x : Chain) : s.CoreFrame (s.setChain c x) := rfl

theorem coreFrame_setCauses (s : State) (n : PointNo) (b : Byte) : s.CoreFrame (s.setCauses n b) := by
  unfold CoreFrame
  rw [setCauses_frame]

theorem coreFrame_emptyCauses (s : State) (n : PointNo) : s.CoreFrame (s.emptyCauses n) := s.coreFrame_setCauses n 0

theorem coreFrame_appendTo (s : State) (c : ClassSel) (n : PointNo) : s.CoreFrame (s.appendTo c n) := by
  cases h : (s.chain c).tail with
  | none =>
    rw [appendTo_of_tail_none h]
    rfl
  | some k =>
    rw [appendTo_of_tail_some h]
    rfl

theorem coreFrame_closeGap (s : State) (c : ClassSel) (n : PointNo) (k : Option PointNo) :
    s.CoreFrame (s.closeGap c n k) := by
  unfold closeGap
  dsimp only
  split_ifs
  · exact s.coreFrame_setChain c _
  · exact s.coreFrame_setChain c _
  · refine CoreFrame.trans ?_ (coreFrame_setChain _ c _)
    split
    · exact s.coreFrame_setNext _ k
    · exact .refl s
  · refine CoreFrame.trans ?_ (coreFrame_setChain _ c _)
    split
    · exact s.coreFrame_setNext _ k
    · exact .refl s

theorem coreFrame_cursorUnlink (s : State) (c : ClassSel) (n : PointNo) (k : Option PointNo) :
    s.CoreFrame (s.cursorUnlink c n k) := by
  unfold cursorUnlink
  split
  · exact .refl s
  · dsimp only
    split_ifs
    · rfl
    · exact .refl s

theorem coreFrame_unlinkFrom (s : State) (c : ClassSel) (n : PointNo) : s.CoreFrame (s.unlinkFrom c n) :=
  ((s.coreFrame_closeGap c n _).trans (coreFrame_setNext _ n none)).trans (coreFrame_cursorUnlink _ c n _)

theorem coreFrame_takeSegments (s : State) (k : Nat) : s.CoreFrame (s.takeSegments k) := by
  unfold CoreFrame
  rw [takeSegments_frame]

theorem coreFrame_returnSegments (s : State) (gs : List SegNo) : s.CoreFrame (s.returnSegments gs) := rfl

theorem coreFrame_commitBlock (s : State) (r : Point) (ws : List Word) : s.CoreFrame (s.commitBlock r ws) := by
  obtain ⟨w, hw⟩ := commitBlock_eq s r ws
  rw [hw]
  rfl

theorem coreFrame_defineCore (s : State) (n : PointNo) (d : Definition) : s.CoreFrame (s.defineCore n d) :=
  (((s.coreFrame_emptyCauses n).trans (coreFrame_takeSegments _ _)).trans (coreFrame_setPoint _ n _)).trans
    (coreFrame_appendTo _ d.cls n)

theorem coreFrame_moveChain (s : State) (n : PointNo) (c : ClassSel) : s.CoreFrame (s.moveChain n c) := by
  by_cases h : c = (s.point n).cls
  · rw [moveChain_of_eq h]
    exact .refl s
  · rw [moveChain_of_ne h]
    exact (s.coreFrame_unlinkFrom _ n).trans (coreFrame_appendTo _ c n)

theorem coreFrame_redefine (s : State) (n : PointNo) (d : Definition) : s.CoreFrame (s.redefine n d) := by
  obtain ⟨k, -, h⟩ | ⟨k, -, h⟩ := s.redefine_cases n d
  · rw [h]
    exact (s.coreFrame_takeSegments k).trans (coreFrame_setPoint _ n _)
  · rw [h]
    exact (s.coreFrame_returnSegments _).trans (coreFrame_setPoint _ n _)

theorem coreFrame_modifyCore (s : State) (n : PointNo) (d : Definition) : s.CoreFrame (s.modifyCore n d) := by
  rw [modifyCore_parts]
  exact (((s.coreFrame_emptyCauses n).trans (coreFrame_moveChain _ n d.cls)).trans (coreFrame_redefine _ n d)).trans
    (coreFrame_commitBlock _ _ [])

theorem coreFrame_freePoint (s : State) (n : PointNo) : s.CoreFrame (s.freePoint n) :=
  ((s.coreFrame_emptyCauses n).trans (coreFrame_returnSegments _ _)).trans (coreFrame_setPoint _ n _)

theorem coreFrame_detach (s : State) (n : PointNo) : s.CoreFrame (s.detach n) :=
  (s.coreFrame_unlinkFrom _ n).trans (coreFrame_emptyCauses _ n)

theorem coreFrame_retireRecord (s : State) (n : PointNo) : s.CoreFrame (s.retireRecord n) := by
  by_cases hf : (s.point n).inFlight = .none
  · rw [retireRecord_of_idle hf]
    exact (s.coreFrame_detach n).trans (coreFrame_freePoint _ n)
  · rw [retireRecord_of_flight hf]
    exact (s.coreFrame_detach n).trans (coreFrame_setPoint _ n _)

/-! #### Commands -/

/-- The records after a DEFINE, but for NEXT (R8). -/
theorem point_defineCore (s : State) (n m : PointNo) (d : Definition) : (s.defineCore n d).point m =
    { (if n = m then definedRecord d (s.freeSegs.take (segmentsFor d.blockLen)) else s.point m) with
      next := ((s.defineCore n d).point m).next } := by
  have hparts : s.defineCore n d = (((s.emptyCauses n).takeSegments (segmentsFor d.blockLen)).setPoint n
      (definedRecord d (s.freeSegs.take (segmentsFor d.blockLen)))).appendTo d.cls n := by
    rw [show s.freeSegs = (s.emptyCauses n).freeSegs by simp]
    rfl
  rw [hparts, onlyNextMoves_appendTo _ d.cls n m, point_setPoint]
  split_ifs with hm
  · rfl
  · simp [point_emptyCauses, hm]

theorem engineStep_defineCore (d : Definition) (h : (s.point n).inFlight = .none) :
    s.EngineStep (s.defineCore n d) := by
  refine .of_eq (fun m => ?_) (by simp)
  rw [point_defineCore]
  split_ifs with hm
  · subst hm
    exact h.symm
  · rfl

/-- The records after a MODIFY, but for NEXT (R10). -/
theorem point_modifyCore (s : State) (n m : PointNo) (d : Definition) : (s.modifyCore n d).point m =
    { (if n = m then modifiedRecord { s.point m with
          causes := 0, segments := ((s.emptyCauses n).moveChain n d.cls).resizedSegments n d.blockLen } d
        else s.point m) with next := ((s.modifyCore n d).point m).next } := by
  rw [modifyCore_parts, (sameStanding_commitBlock _ _ _).points, point_redefine,
    onlyNextMoves_moveChain (s.emptyCauses n) n d.cls m, point_emptyCauses]
  split_ifs with hm
  · rw [modifiedRecord_eq, modifiedRecord_eq]
    rfl
  · rfl

theorem engineStep_modifyCore (s : State) (n : PointNo) (d : Definition) : s.EngineStep (s.modifyCore n d) := by
  refine .of_eq (fun m => ?_) (s.coreFrame_modifyCore n d).bus
  rw [point_modifyCore]
  split_ifs with hm
  · rw [modifiedRecord_eq]
    rfl
  · rfl

theorem engineStep_retireRecord (s : State) (n : PointNo) : s.EngineStep (s.retireRecord n) := by
  refine .of_eq (fun m => ?_) (s.coreFrame_retireRecord n).bus
  rw [point_retireRecord]
  split_ifs with hm hf
  · exact hf.symm
  · rfl
  · rfl

theorem engineStep_retireWaiter (s : State) (n : PointNo) (p : Port) : s.EngineStep (s.retireWaiter n p) := by
  unfold retireWaiter
  split
  · split_ifs
    · exact (s.engineStep_abandonAccess p).trans (engineStep_complete _ p _ _)
    · exact .refl s
  · exact .refl s

theorem engineStep_retirePoint (s : State) (n : PointNo) : s.EngineStep (s.retirePoint n) :=
  ((s.engineStep_retireRecord n).trans (engineStep_retireWaiter _ n .primary)).trans (engineStep_retireWaiter _ n .maint)

theorem engineStep_foldl_retirePoint (ns : List PointNo) (s : State) : s.EngineStep (ns.foldl State.retirePoint s) := by
  induction ns generalizing s with
  | nil => exact .refl s
  | cons n ns ih => exact (s.engineStep_retirePoint n).trans (ih _)

/-- A record changes but for IN_FLIGHT. -/
theorem engineStep_setPoint {r : Point} (h : r.inFlight = (s.point n).inFlight) : s.EngineStep (s.setPoint n r) := by
  refine .of_eq (fun m => ?_) rfl
  rw [point_setPoint]
  split_ifs with hm
  · rw [h, hm]
  · rfl

theorem engineStep_awaitWrite (s : State) (p : Port) (n : PointNo) : s.EngineStep (s.awaitWrite p n) := by
  unfold awaitWrite
  dsimp only
  split_ifs
  · exact s.engineStep_requestAccess p _ _
  · exact s.engineStep_enterPhase p _
  · refine EngineStep.trans (engineStep_setPoint ?_) (engineStep_enterPhase _ p _)
    rfl

theorem engineStep_takeDefine (p : Port) (c : Command) (h : ∀ m, (s.point m).state = .free → (s.point m).inFlight = .none) :
    s.EngineStep (takeDefine p c s) := by
  unfold takeDefine
  dsimp only
  split_ifs with hfree
  · split
    · exact (engineStep_defineCore _ (h _ hfree)).trans (engineStep_complete _ p _ _)
    · exact s.engineStep_complete p _ _
  · exact s.engineStep_complete p _ _

theorem engineStep_takeModify (p : Port) (c : Command) (s : State) : s.EngineStep (takeModify p c s) := by
  unfold takeModify
  dsimp only
  split
  · exact s.engineStep_complete p _ _
  · split
    · exact (s.engineStep_modifyCore _ _).trans (engineStep_complete _ p _ _)
    · exact s.engineStep_complete p _ _

theorem engineStep_takeRetire (p : Port) (c : Command) (s : State) : s.EngineStep (takeRetire p c s) := by
  unfold takeRetire
  dsimp only
  split
  · exact s.engineStep_complete p _ _
  · split_ifs
    · exact (s.engineStep_retirePoint _).trans (engineStep_complete _ p _ _)
    · exact (s.engineStep_retirePoint _).trans (engineStep_enterPhase _ p _)

theorem engineStep_takeHolder (x : Option Port) (p : Port) (c : Command) (s : State) :
    s.EngineStep (takeHolder x p c s) := by
  unfold takeHolder
  split
  · exact s.engineStep_complete p _ _
  · refine EngineStep.trans (engineStep_setPoint ?_) (engineStep_complete _ p _ _)
    rfl

theorem engineStep_takeReadNow (p : Port) (c : Command) (s : State) : s.EngineStep (takeReadNow p c s) := by
  unfold takeReadNow
  dsimp only
  split
  · exact s.engineStep_complete p _ _
  · split_ifs
    · exact s.engineStep_requestAccess p _ _
    · exact s.engineStep_enterPhase p _

theorem engineStep_takeWrite (p : Port) (c : Command) (s : State) : s.EngineStep (takeWrite p c s) := by
  unfold takeWrite
  dsimp only
  split_ifs
  · exact s.engineStep_complete p _ _
  · exact s.engineStep_complete p _ _
  · exact s.engineStep_complete p _ _
  · exact s.engineStep_complete p _ _
  · refine EngineStep.trans (engineStep_setPoint ?_) (engineStep_awaitWrite _ p _)
    rfl

theorem engineStep_takeSetRegion (p : Port) (c : Command) (s : State) : s.EngineStep (takeSetRegion p c s) := by
  unfold takeSetRegion
  split
  next u hu =>
    obtain ⟨r, -, rfl⟩ := storeRegion_ok hu
    have hset : s.EngineStep (s.setRegion r (Region.ofWords (paramWord c))) := .of_bus (fun _ => rfl) rfl fun _ h => h
    exact hset.trans (engineStep_complete _ p _ _)
  next => exact s.engineStep_complete p _ _

theorem engineStep_takeGetRegion (p : Port) (c : Command) (s : State) : s.EngineStep (takeGetRegion p c s) := by
  unfold takeGetRegion
  split_ifs
  · exact s.engineStep_complete p _ _
  · exact s.engineStep_complete p _ _

theorem engineStep_setClassState (s : State) (k : ClassNo) (x : ClassState) : s.EngineStep (s.setClassState k x) :=
  .of_eq (fun _ => rfl) rfl

theorem engineStep_takeSetClass (p : Port) (c : Command) (s : State) : s.EngineStep (takeSetClass p c s) := by
  unfold takeSetClass
  split_ifs
  · exact (s.engineStep_setClassState _ _).trans (engineStep_complete _ p _ _)
  · exact s.engineStep_complete p _ _

theorem engineStep_takeGetClass (p : Port) (c : Command) (s : State) : s.EngineStep (takeGetClass p c s) := by
  unfold takeGetClass
  split
  · exact s.engineStep_complete p _ _
  · exact s.engineStep_complete p _ _

theorem engineStep_takeClearAll (p : Port) (c : Command) (s : State) : s.EngineStep (takeClearAll p c s) := by
  unfold takeClearAll
  dsimp only
  split_ifs
  · exact s.engineStep_complete p _ _
  · split
    · exact (engineStep_foldl_retirePoint _ s).trans (engineStep_enterPhase _ p _)
    · exact (engineStep_foldl_retirePoint _ s).trans (engineStep_complete _ p _ _)

/-- No command starts or ends an access. -/
theorem engineStep_commandAct (name : CmdName) (p : Port) (c : Command)
    (h : ∀ m, (s.point m).state = .free → (s.point m).inFlight = .none) : s.EngineStep (commandAct name p c s) := by
  cases name with
  | define => exact engineStep_takeDefine p c h
  | modify => exact engineStep_takeModify p c s
  | retire => exact engineStep_takeRetire p c s
  | hold => exact engineStep_takeHolder (some p) p c s
  | release => exact engineStep_takeHolder none p c s
  | read => exact s.engineStep_complete p _ _
  | readNow => exact engineStep_takeReadNow p c s
  | write => exact engineStep_takeWrite p c s
  | setRegion => exact engineStep_takeSetRegion p c s
  | getRegion => exact engineStep_takeGetRegion p c s
  | setClass => exact engineStep_takeSetClass p c s
  | getClass => exact engineStep_takeGetClass p c s
  | clearAll => exact engineStep_takeClearAll p c s
  | dismiss => exact .refl s
  | unknown => exact s.engineStep_complete p _ _

end Sys2Proof.Machine.State

end

/-! ### Accesses from event to event -/

section

namespace Sys2Proof.Machine.State

variable {s t u : State} {n : PointNo} {p : Port} {g : Grant} {a : Access}

/-! #### Accesses that start, go on and end -/

theorem accessPoint_running (h : s.bus.phase = .running g a) : s.accessPoint = some g.point := by rw [accessPoint, h]

theorem accessPoint_reporting {c : Completion} (h : s.bus.phase = .reporting g a c) :
    s.accessPoint = some g.point := by rw [accessPoint, h]

/-- An engine with an access is not IDLE. -/
theorem engineAgrees_of_access (h : s.accessPoint = some n) : s.EngineAgrees := fun hi => by
  rw [accessPoint, hi] at h
  exact absurd h (by simp)

/-- The engine turns to another stage of its access. -/
theorem EngineStep.of_access (hp : ∀ m, t.point m = s.point m) (hs : s.accessPoint = some n)
    (ht : t.accessPoint = some n) : s.EngineStep t where
  flight m := by rw [hp]
  access := ht.trans hs.symm
  engine _ := engineAgrees_of_access ht

theorem accessPoint_reportAccess (s : State) (g : Grant) (a : Access) (o : Outcome) :
    (s.reportAccess g a o).accessPoint = some g.point := rfl

theorem accessPoint_nextBeat (s : State) (g : Grant) (a : Access) : (s.nextBeat g a).accessPoint = some g.point := by
  unfold nextBeat
  split <;> rfl

/-- A beat that ends leads to the next beat, or to the report. -/
theorem accessPoint_endBeat (bd : Word) (h : s.bus.phase = .running g a) :
    (s.endBeat g a bd).accessPoint = some g.point := by
  unfold endBeat
  split
  · exact accessPoint_nextBeat s g _
  · exact accessPoint_running h

/-- In IDLE no access is in progress (R121). -/
theorem accessPoint_busIdle (s : State) : s.busIdle.accessPoint = none := by
  rw [busIdle, accessPoint_grantNext]
  rfl

theorem engineSound_busIdle (h : ∀ m, (s.point m).inFlight = .none) : s.busIdle.EngineSound := by
  refine ⟨fun m => ?_, engineAgrees_grantNext _⟩
  rw [accessPoint_busIdle, (sameStanding_busIdle s).points, h m]
  simp

/-- The start of an access sets IN_FLIGHT of its point, and the engine runs or reports it (R24, R125). -/
theorem EngineSound.takeStart (hs : s.EngineSound) (hg : s.bus.phase = .granted g) : (s.takeStart g).EngineSound := by
  have hnone : ∀ m, (s.point m).inFlight = .none := fun m => by
    have hm := hs.1 m
    rw [accessPoint, hg] at hm
    simpa using hm
  have hstarted : ∀ x : InFlight, x ≠ .none → ∀ m,
      ((((s.setPoint g.point { s.point g.point with inFlight := x }).tellStarted g).point m).inFlight ≠ .none ↔
        some g.point = some m) := fun x hx m => by
    rw [(sameStanding_tellStarted _ g).points, point_setPoint]
    split_ifs with hm
    · simp [hx, hm]
    · simp [hnone m, hm]
  have hsound : ∀ v w : State, v.BusOnly w → w.accessPoint = some g.point →
      (∀ m, (v.point m).inFlight ≠ .none ↔ some g.point = some m) → w.EngineSound := fun v w hb hw hv => by
    refine ⟨fun m => ?_, engineAgrees_of_access hw⟩
    rw [(sameStanding_of_busOnly hb).points, hw]
    exact hv m
  unfold State.takeStart
  dsimp only
  split_ifs
  · refine engineSound_busIdle fun m => ?_
    rw [(sameStanding_tellWithdrawn s g).points]
    exact hnone m
  · exact hsound _ _ (busOnly_reportAccess _ _ _ _) (accessPoint_reportAccess _ _ _ _) (hstarted _ (inFlightOf_ne _))
  · exact hsound _ _ (busOnly_reportAccess _ _ _ _) (accessPoint_reportAccess _ _ _ _) (hstarted _ (inFlightOf_ne _))
  · exact hsound _ _ (busOnly_nextBeat _ _ _) (accessPoint_nextBeat _ _ _) (hstarted _ (inFlightOf_ne _))

/-- A completion clears IN_FLIGHT of its point, and the engine enters IDLE (R25, R136). -/
theorem AccessAgrees.takeCompletion (ha : s.AccessAgrees) {c : Completion} (h : s.NextCompletion g c) :
    (s.takeCompletion g c).EngineSound := by
  obtain ⟨⟨a, hphase⟩, -⟩ := h
  have hother : ∀ m, m ≠ g.point → (s.point m).inFlight = .none := fun m hm => by
    by_contra hne
    have := (ha m).mp hne
    rw [accessPoint_reporting hphase, Option.some.injEq] at this
    exact hm this.symm
  unfold State.takeCompletion
  dsimp only
  refine engineSound_busIdle fun m => ?_
  split_ifs
  · rw [completeRetiring, (sameStanding_finishWaitFree _ _ _).points, (sameStanding_finishWaitFree _ _ _).points,
      point_freePoint]
    split_ifs with hm
    · rfl
    · exact hother m (Ne.symm hm)
  · rw [discardCompletion, (sameStanding_afterDiscard _ _ _ _).points, (sameStanding_afterDiscard _ _ _ _).points,
      point_setPoint]
    split_ifs with hm
    · rfl
    · exact hother m (Ne.symm hm)
  · rw [countCompletion_eq, (sameStanding_afterCounted _ _ _ _ _ _).points,
      (sameStanding_afterCounted _ _ _ _ _ _).points]
    by_cases hm : m = g.point
    · rw [hm, point_afterJudging_self]
    · rw [point_afterJudging_ne hm]
      exact hother m hm

/-! #### The timebase and the scan engine -/

theorem classesOnly_refl (s : State) : s.ClassesOnly s := rfl

theorem classesOnly_takeExpiry (s : State) (c : ClassNo) : s.ClassesOnly (s.takeExpiry c) := by
  obtain ⟨x, hx⟩ := s.takeExpiry_eq c
  rw [hx]
  rfl

theorem classesOnly_countDown (s : State) (c : ClassNo) : s.ClassesOnly (s.countDown c) := by
  unfold countDown
  dsimp only
  split_ifs
  · exact (s.classesOnly_takeExpiry c).trans rfl
  · rfl
  · exact s.classesOnly_refl

theorem classesOnly_millisecondTick (s : State) : s.ClassesOnly s.millisecondTick :=
  (((s.classesOnly_countDown 0).trans (classesOnly_countDown _ 1)).trans (classesOnly_countDown _ 2)).trans
    (classesOnly_countDown _ 3)

theorem ClassesOnly.engineStep (h : s.ClassesOnly t) : s.EngineStep t := by
  rw [h]
  exact .of_eq (fun _ => rfl) rfl

theorem ClassesOnly.phase (h : s.ClassesOnly t) : t.bus.phase = s.bus.phase := by rw [h]

theorem mapAccess_of_running (f : Access → Access) (h : s.bus.phase = .running g a) :
    s.mapAccess f = s.setPhase (.running g (f a)) := by
  unfold mapAccess
  rw [h]

theorem mapAccess_of_ne (f : Access → Access) (h : ∀ g a, s.bus.phase ≠ .running g a) : s.mapAccess f = s := by
  unfold mapAccess
  split
  · next g a hp => exact absurd hp (h g a)
  all_goals rfl

theorem engineStep_mapAccess (s : State) (f : Access → Access) : s.EngineStep (s.mapAccess f) := by
  by_cases h : ∃ g a, s.bus.phase = .running g a
  · obtain ⟨g, a, hp⟩ := h
    rw [mapAccess_of_running f hp]
    exact .of_access (fun _ => rfl) (accessPoint_running hp) rfl
  · push Not at h
    rw [mapAccess_of_ne f h]
    exact .refl s

theorem engineStep_timebase (s : State) (x : Timebase) : s.EngineStep { s with timebase := x } :=
  .of_eq (fun _ => rfl) rfl

theorem engineStep_microsecondTick (s : State) : s.EngineStep s.microsecondTick := by
  unfold microsecondTick
  dsimp only
  split_ifs
  · exact (s.engineStep_mapAccess _).trans (engineStep_timebase _ _)
  · exact ((s.engineStep_mapAccess _).trans (engineStep_timebase _ _)).trans (classesOnly_millisecondTick _).engineStep

theorem engineStep_clkPeriod (s : State) : s.EngineStep s.clkPeriod := by
  unfold clkPeriod
  dsimp only
  split_ifs
  · exact (s.engineStep_mapAccess _).trans (engineStep_timebase _ _)
  · exact ((s.engineStep_mapAccess _).trans (engineStep_timebase _ _)).trans (engineStep_microsecondTick _)

theorem engineStep_runClk (k : Nat) (s : State) : s.EngineStep (s.runClk k) := by
  induction k generalizing s with
  | zero => exact .refl s
  | succ k ih => exact s.engineStep_clkPeriod.trans (ih _)

/-- Without an access to count for, CLK leaves the engine IDLE. -/
theorem phase_mapAccess_idle (f : Access → Access) (h : s.bus.phase = .idle) : (s.mapAccess f).bus.phase = .idle := by
  rw [mapAccess_of_ne f fun g a => by simp [h]]
  exact h

theorem phase_microsecondTick_idle (h : s.bus.phase = .idle) : s.microsecondTick.bus.phase = .idle := by
  unfold microsecondTick
  dsimp only
  split_ifs
  · exact phase_mapAccess_idle _ h
  · rw [(classesOnly_millisecondTick _).phase]
    exact phase_mapAccess_idle _ h

theorem phase_clkPeriod_idle (h : s.bus.phase = .idle) : s.clkPeriod.bus.phase = .idle := by
  unfold clkPeriod
  dsimp only
  split_ifs
  · exact phase_mapAccess_idle _ h
  · exact phase_microsecondTick_idle (phase_mapAccess_idle _ h)

theorem phase_runClk_idle (k : Nat) (h : s.bus.phase = .idle) : (s.runClk k).bus.phase = .idle := by
  induction k generalizing s with
  | zero => exact h
  | succ k ih => exact ih (phase_clkPeriod_idle h)

theorem engineStep_rule (s : State) (n : PointNo) : s.EngineStep (s.rule n) := by
  unfold rule
  dsimp only
  split_ifs
  · exact .of_eq (fun _ => rfl) rfl
  · refine EngineStep.trans (engineStep_setPoint ?_) (.of_eq (fun _ => rfl) rfl)
    rfl
  · have hasked : s.EngineStep { s with scan := { s.scan with req := .requested } } := .of_eq (fun _ => rfl) rfl
    exact hasked.trans (engineStep_placeRequest _ _ _ _)

theorem engineStep_takeVisit (s : State) (w : ScanWork) : s.EngineStep (s.takeVisit w) := by
  cases w with
  | pass c =>
    show s.EngineStep (s.visitPass c)
    unfold visitPass
    split
    · exact .of_eq (fun _ => rfl) rfl
    · exact (s.engineStep_rule _).trans (engineStep_setClassState _ c _)
  | sweep r =>
    show s.EngineStep (s.visitSweep r)
    unfold visitSweep
    split
    · exact .of_eq (fun _ => rfl) rfl
    · exact (s.engineStep_rule _).trans (.of_eq (fun _ => rfl) rfl)

theorem engineStep_chooseWork (s : State) : s.EngineStep s.chooseWork := by
  unfold chooseWork
  split
  · exact .of_eq (fun _ => rfl) rfl
  · split
    · exact .of_eq (fun _ => rfl) rfl
    · split
      · exact .of_eq (fun _ => rfl) rfl
      · exact .refl s

/-- The scan engine withdraws its request, and no other (R73, R124). -/
theorem engineStep_withdrawScan (s : State) : s.EngineStep s.withdrawScan := by
  unfold withdrawScan
  split
  · exact .refl s
  · exact .of_eq (fun _ => rfl) rfl
  · split
    · refine .of_bus (fun _ => rfl) rfl fun r hr => ?_
      rcases r with _ | (_ | _)
      · rfl
      · exact hr
      · exact hr
    · exact .refl s

theorem engineStep_writeScanRun (s : State) (on : Bool) : s.EngineStep (s.writeScanRun on) := by
  cases on with
  | true => exact .of_eq (fun _ => rfl) rfl
  | false =>
    cases hr : s.scan.run with
    | false =>
      rw [writeScanRun_idle hr]
      exact .refl s
    | true =>
      rw [writeScanRun_clear hr]
      have hended : s.EngineStep s.endWork := .of_eq (fun _ => rfl) rfl
      exact (hended.trans (engineStep_withdrawScan _)).trans (.of_eq (fun _ => rfl) rfl)

/-! #### Register writes and resets -/

theorem engineStep_setPort (s : State) (p : Port) (x : PortState) : s.EngineStep (s.setPort p x) :=
  .of_eq (by simp) (by simp)

theorem engineStep_send (s : State) (p : Port) (w : Word) : s.EngineStep (s.send p w) := .of_eq (by simp) (by simp)

theorem engineStep_closeWrite (s : State) (v : Via) : s.EngineStep (s.closeWrite v) := by
  cases v with
  | spi => exact .refl s
  | i2c => exact .of_eq (fun _ => rfl) rfl

theorem engineStep_applyControl (s : State) (p : Port) (w : Word) : s.EngineStep (s.applyControl p w) := by
  have hnotify : ∀ (u : State) (on : Bool), u.EngineStep (u.writeNotifyEn on) := fun u on => .of_eq (fun _ => rfl) rfl
  exact ((s.engineStep_writeScanRun _).trans (hnotify _ _)).trans (engineStep_setPort _ p _)

/-- A warm reset aborts the access and empties the request table (R13, R138). -/
theorem engineSound_warmReset (s : State) : s.warmReset.EngineSound := by
  refine ⟨fun m => ?_, fun _ r => ?_⟩
  · rw [show s.warmReset.accessPoint = none by rw [warmReset_eq]; rfl, point_warmReset, Point.warm]
    split_ifs <;> simp [Point.free]
  · rw [warmReset_eq]
    rcases r with _ | (_ | _) <;> rfl

theorem engineStep_setCauses (s : State) (n : PointNo) (b : Byte) : s.EngineStep (s.setCauses n b) := by
  refine .of_eq (fun m => ?_) (by simp)
  rw [point_setCauses]
  split_ifs <;> rfl

theorem engineStep_takeClaim (p : Port) (s : State) : s.EngineStep (takeClaim p s).2 := by
  have hlatch : ∀ x y, s.EngineStep (s.latchClaim p x y) := fun x y => .of_eq (by simp [latchClaim]) (by simp [latchClaim])
  unfold takeClaim
  split
  · dsimp only
    split_ifs
    · exact hlatch _ _
    · exact (hlatch _ _).trans (engineStep_setCauses _ _ _)
  · exact hlatch _ _

theorem EngineSound.written (hs : s.EngineSound) (hw : s.Written p t) : t.EngineSound := by
  cases hw with
  | ignored => exact hs
  | port x => exact (s.engineStep_setPort p x).sound hs
  | status w =>
    obtain ⟨e, y, z, he⟩ := s.writeStatus_eq p w
    rw [he]
    exact hs
  | control w =>
    by_cases hw : p = .primary ∧ flag w 15 = true
    · rw [writeControl_of_warm hw]
      exact s.engineSound_warmReset
    · rw [writeControl_of_not_warm hw]
      exact (s.engineStep_applyControl p w).sound hs
  | levels => exact hs
  | order lo hi =>
    obtain ⟨o, e, he⟩ := s.installOrder_eq lo hi
    rw [he]
    exact hs
  | ack w => exact (s.engineStep_setCauses _ _).sound hs
  | lines => exact hs
  | overruns w => exact hs

/-! #### Every event -/

theorem engineSound_coldReset (s : State) (madrHigh scsLow : Bool) : (s.coldReset madrHigh scsLow).EngineSound := by
  refine ⟨fun m => ?_, fun _ r => ?_⟩
  · rw [show (s.coldReset madrHigh scsLow).point m = State.reset.point m from rfl, point_reset]
    simp [Point.free, accessPoint, coldReset, State.reset, Bus.reset]
  · rcases r with _ | (_ | _) <;> rfl

/-- With the engine IDLE and every point FREE IN_FLIGHT agrees. -/
theorem EngineSound.undoLoad (hs : s.EngineSound) (hp : s.bus.phase = .idle) : s.undoLoad.EngineSound := by
  refine ⟨fun m => ?_, hs.2⟩
  rw [show s.undoLoad.accessPoint = none by rw [accessPoint, show s.undoLoad.bus.phase = s.bus.phase from rfl, hp],
    show s.undoLoad.point m = Point.free by simp [State.undoLoad, failLoading, endLoading, point]]
  simp [Point.free]

theorem engineStep_applyPointRecord (ws : List Word) (h : ∀ m, (s.point m).state = .free → (s.point m).inFlight = .none) :
    s.EngineStep (s.applyPointRecord ws) := by
  obtain ⟨l, hl⟩ | ⟨n, d, l, raw, hfree, hd, hl⟩ := s.applyPointRecord_cases ws
  · rw [hl]
    exact .of_eq (fun _ => rfl) rfl
  · rw [hl]
    exact (engineStep_defineCore d (h n hfree)).trans (.of_eq (fun _ => rfl) rfl)

theorem EngineSound.judgeSum (hs : s.EngineSound) (hp : s.bus.phase = .idle) (ws : List Word) :
    (s.judgeSum ws).EngineSound := by
  unfold State.judgeSum
  split_ifs
  · have hended : s.EngineStep s.endLoading := .of_eq (fun _ => rfl) rfl
    have hnotify : ∀ (u : State) (on : Bool), u.EngineStep (u.writeNotifyEn on) := fun u on => .of_eq (fun _ => rfl) rfl
    exact ((hended.trans (engineStep_writeScanRun _ _)).trans (hnotify _ _)).sound hs
  · exact hs.undoLoad hp

/-- Every event keeps IN_FLIGHT and the requests in agreement with the engine. -/
theorem Effect.engineSound (h : s.Effect t) (hs : s.EngineSound) (hp : s.Standing)
    (hl : s.loading = true → s.bus.phase = .idle) : t.EngineSound := by
  have hfree : ∀ m, (s.point m).state = .free → (s.point m).inFlight = .none := fun m => (hp.records m).flight.2.2
  cases h with
  | nothing => exact hs
  | command p name c => exact (engineStep_commandAct (s := { s with lastTaken := .slot p }) name p c hfree).sound hs
  | start g h => exact hs.takeStart h
  | backN => exact hs
  | beatReleased g a op h => exact EngineStep.sound (.of_access (s := s) (fun _ => rfl) (accessPoint_running h) rfl) hs
  | beatEnded b g a bd h =>
    have hrun : ({ s with backAsserted := b } : State).bus.phase = .running g a := h
    refine (EngineStep.of_access (fun m => ?_) (accessPoint_running h) (accessPoint_endBeat bd hrun)).sound hs
    exact (sameStanding_of_busOnly (busOnly_endBeat { s with backAsserted := b } g a bd)).points m
  | timeout g a h => exact EngineStep.sound (.of_access (s := s) (fun _ => rfl) (accessPoint_running h) rfl) hs
  | completion g c h => exact hs.1.takeCompletion h
  | clk k => exact (engineStep_runClk k s).sound hs
  | expiry c => exact (s.classesOnly_takeExpiry c).engineStep.sound hs
  | choice => exact s.engineStep_chooseWork.sound hs
  | visit w => exact (engineStep_takeVisit { s with lastTaken := .scan } w).sound hs
  | atn l high =>
    obtain ⟨_, _, he⟩ := s.takeAtn_eq l high
    rw [he]
    exact hs
  | flagSetAgain l =>
    obtain ⟨_, he⟩ := s.keepFlag_scan l
    rw [he]
    exact hs
  | write p addr w => exact hs.written (s.written_writeAny p addr w)
  | readHeld v => exact ((s.engineStep_closeWrite v).trans (engineStep_send _ _ _)).sound hs
  | claim v =>
    exact (((s.engineStep_closeWrite v).trans (engineStep_takeClaim _ _)).trans (engineStep_send _ _ _)).sound hs
  | blkDataRead v =>
    exact (((s.engineStep_closeWrite v).trans (engineStep_setPort _ _ _)).trans (engineStep_send _ _ _)).sound hs
  | commandByte b =>
    obtain ⟨_, _, he⟩ := s.takeCommandByte_eq b
    rw [he]
    exact hs
  | transferEnd => exact hs
  | pointer target b =>
    obtain ⟨_, _, he⟩ := s.takePointer_eq target b
    rw [he]
    exact hs
  | coldReset m c => exact s.engineSound_coldReset m c
  | verdict v =>
    obtain ⟨_, _, he⟩ := s.takeVerdict_eq v
    rw [he]
    exact hs
  | undone h => exact hs.undoLoad (hl (loading_of_apply h))
  | header ws =>
    obtain ⟨_, _, _, _, _, _, he⟩ := (s.addSum ws).applyHeader_eq ws
    rw [he]
    exact hs
  | regionRecord ws =>
    obtain ⟨_, _, he⟩ := (s.addSum ws).applyRegionRecord_eq ws
    rw [he]
    exact hs
  | pointRecord ws => exact (engineStep_applyPointRecord (s := s.addSum ws) ws hfree).sound hs
  | checksum ws h => exact EngineSound.judgeSum (s := s.addSum ws) hs (hl (loading_of_apply h)) ws

end Sys2Proof.Machine.State

namespace Sys2Proof.Machine

/-- Settles O8: the records by `Standing`, the engine by `EngineSound`. -/
theorem stepKeepsRecordsAndFlight : Obligations.StepKeepsRecordsAndFlight := by
  intro s t hs h
  obtain ⟨u, hu, he⟩ := State.effect_of_step hs h
  have hstanding : t.Standing := he.standing hu.standing hu.accessAgrees hu.quietLoad
  obtain ⟨haccess, hengine⟩ := he.engineSound ⟨hu.accessAgrees, hu.engine⟩ hu.standing fun hl => (hu.load hl).1
  exact ⟨hstanding.recordsQuiet, hstanding.flightAgrees haccess, hengine⟩

end Sys2Proof.Machine

end

/-! ### Loading and the level order from event to event -/

section

namespace Sys2Proof.Machine.State

variable {s t u : State} {n : PointNo} {p : Port}

/-! #### The loader and the order -/

/-- From `s` to `t` the loader and the level order have not changed. -/
def OuterFrame (s t : State) : Prop := t.loader = s.loader ∧ t.notify.order = s.notify.order

theorem OuterFrame.refl (s : State) : s.OuterFrame s := ⟨rfl, rfl⟩

theorem OuterFrame.trans (h : s.OuterFrame t) (h' : t.OuterFrame u) : s.OuterFrame u :=
  ⟨h'.1.trans h.1, h'.2.trans h.2⟩

theorem OuterFrame.loading (h : s.OuterFrame t) : t.loading = s.loading := by rw [State.loading, State.loading, h.1]

theorem OuterFrame.orderAgrees (h : s.OuterFrame t) (hs : s.OrderAgrees) : t.OrderAgrees := by
  rw [OrderAgrees, h.2]
  exact hs

theorem OuterFrame.of_tableFrame (h : s.TableFrame t) : s.OuterFrame t := ⟨h.loader, h.order⟩

theorem OuterFrame.of_busOnly (h : s.BusOnly t) : s.OuterFrame t := by
  rw [h]
  exact .refl s

theorem outerFrame_takeStart (s : State) (g : Grant) : s.OuterFrame (s.takeStart g) := by
  have htold : ∀ u : State, u.OuterFrame (u.tellStarted g) := fun u => by
    unfold tellStarted
    split
    · exact .refl u
    · split_ifs
      · exact .of_tableFrame (u.tableFrame_enterPhase _ _)
      · exact .refl u
  have hwithdrawn : s.OuterFrame (s.tellWithdrawn g) := by
    unfold tellWithdrawn
    split <;> exact .refl s
  have hpoint : ∀ r, s.OuterFrame (s.setPoint g.point r) := fun _ => .refl s
  unfold takeStart
  dsimp only
  split_ifs
  · exact hwithdrawn.trans (.of_busOnly (busOnly_busIdle _))
  · exact ((hpoint _).trans (htold _)).trans (.of_busOnly (busOnly_reportAccess _ _ _ _))
  · exact ((hpoint _).trans (htold _)).trans (.of_busOnly (busOnly_reportAccess _ _ _ _))
  · exact ((hpoint _).trans (htold _)).trans (.of_busOnly (busOnly_nextBeat _ _ _))

theorem OuterFrame.of_clockOnly (h : s.ClockOnly t) : s.OuterFrame t := by
  rw [h]
  exact .refl s

theorem outerFrame_rule (s : State) (n : PointNo) : s.OuterFrame (s.rule n) := by
  unfold rule
  dsimp only
  split_ifs
  · exact .refl s
  · exact .refl s
  · have hasked : s.OuterFrame { s with scan := { s.scan with req := .requested } } := .refl s
    exact hasked.trans (.of_busOnly (busOnly_placeRequest _ _ _ _))

theorem outerFrame_takeVisit (s : State) (w : ScanWork) : s.OuterFrame (s.takeVisit w) := by
  cases w with
  | pass c =>
    show s.OuterFrame (s.visitPass c)
    unfold visitPass
    split
    · exact .refl s
    · exact s.outerFrame_rule _
  | sweep r =>
    show s.OuterFrame (s.visitSweep r)
    unfold visitSweep
    split
    · exact .refl s
    · exact s.outerFrame_rule _

theorem outerFrame_chooseWork (s : State) : s.OuterFrame s.chooseWork := by
  unfold chooseWork
  split
  · exact .refl s
  · split
    · exact .refl s
    · split <;> exact .refl s

theorem outerFrame_setPort (s : State) (p : Port) (x : PortState) : s.OuterFrame (s.setPort p x) := by
  cases p <;> exact .refl s

theorem outerFrame_send (s : State) (p : Port) (w : Word) : s.OuterFrame (s.send p w) := by
  cases p <;> exact .refl s

theorem outerFrame_closeWrite (s : State) (v : Via) : s.OuterFrame (s.closeWrite v) := by
  cases v <;> exact .refl s

theorem outerFrame_takeClaim (p : Port) (s : State) : s.OuterFrame (takeClaim p s).2 := by
  unfold takeClaim
  split
  · dsimp only
    split_ifs
    · exact s.outerFrame_setPort p _
    · exact (s.outerFrame_setPort p _).trans (.of_tableFrame (tableFrame_emptyCauses _ _))
  · exact s.outerFrame_setPort p _

/-! #### The level order (R151) -/

/-- The installed order lists the entries of the accepted pair. -/
theorem orderOf_eq_entries {lo hi : Word} (h : orderValid lo hi = true) :
    (orderOf lo hi).toList.map Fin.val = orderEntries lo hi := by
  simp only [orderValid, orderEntries, Bool.and_eq_true, List.all_cons, List.all_nil, decide_eq_true_eq] at h
  obtain ⟨⟨h₀, h₁, h₂, h₃, h₄, h₅, h₆, h₇, -⟩, -⟩ := h
  simp [orderOf, orderEntries, Nat.mod_eq_of_lt, *]

/-- An accepted order is a permutation. -/
theorem nodup_orderOf {lo hi : Word} (h : orderValid lo hi = true) : (orderOf lo hi).toList.Nodup := by
  refine List.Nodup.of_map Fin.val ?_
  rw [orderOf_eq_entries h]
  simp only [orderValid, Bool.and_eq_true, decide_eq_true_eq] at h
  exact h.2

theorem OrderAgrees.installOrder (h : s.OrderAgrees) (lo hi : Word) : (s.installOrder lo hi).OrderAgrees := by
  unfold State.installOrder
  split_ifs with hv
  · exact nodup_orderOf hv
  · exact h

theorem nodup_orderReset : Notify.orderReset.toList.Nodup := by decide

/-- A register write leaves the loader, and the level order a permutation. -/
theorem Written.loader_order (h : s.Written p t) : t.loader = s.loader ∧ (s.OrderAgrees → t.OrderAgrees) := by
  cases h with
  | ignored => exact ⟨rfl, id⟩
  | port x => exact ⟨(s.outerFrame_setPort p x).1, (s.outerFrame_setPort p x).orderAgrees⟩
  | status w =>
    obtain ⟨_, _, _, he⟩ := s.writeStatus_eq p w
    rw [he]
    exact ⟨rfl, id⟩
  | control w =>
    by_cases hw : p = .primary ∧ flag w 15 = true
    · rw [writeControl_of_warm hw, warmReset_eq]
      exact ⟨rfl, id⟩
    · obtain ⟨_, _, _, _, _, he⟩ := s.applyControl_eq p w
      rw [writeControl_of_not_warm hw, he]
      exact ⟨rfl, id⟩
  | levels => exact ⟨rfl, id⟩
  | order lo hi =>
    refine ⟨?_, fun hs => hs.installOrder lo hi⟩
    obtain ⟨_, _, he⟩ := s.installOrder_eq lo hi
    rw [he]
  | ack w =>
    have hframe : s.OuterFrame (writeAck w s) := .of_tableFrame (s.tableFrame_setCauses _ _)
    exact ⟨hframe.1, hframe.orderAgrees⟩
  | lines => exact ⟨rfl, id⟩
  | overruns => exact ⟨rfl, id⟩

/-- Every event keeps the level order a permutation (R151). -/
theorem Effect.orderAgrees (h : s.Effect t) (hs : s.OrderAgrees) : t.OrderAgrees := by
  cases h with
  | nothing => exact hs
  | command p name c h => exact (OuterFrame.of_tableFrame h.tableFrame).orderAgrees hs
  | start g => exact (s.outerFrame_takeStart g).orderAgrees hs
  | backN => exact hs
  | beatReleased => exact hs
  | beatEnded b g a bd =>
    exact (OuterFrame.of_busOnly (busOnly_endBeat { s with backAsserted := b } g a bd)).orderAgrees hs
  | timeout => exact hs
  | completion g c => exact (OuterFrame.of_tableFrame (s.tableFrame_takeCompletion g c)).orderAgrees hs
  | clk k => exact (OuterFrame.of_clockOnly (clockOnly_runClk k s)).orderAgrees hs
  | expiry c => exact (OuterFrame.of_clockOnly (s.clockOnly_takeExpiry c)).orderAgrees hs
  | choice => exact s.outerFrame_chooseWork.orderAgrees hs
  | visit w => exact (outerFrame_takeVisit { s with lastTaken := .scan } w).orderAgrees hs
  | atn l high =>
    obtain ⟨_, _, he⟩ := s.takeAtn_eq l high
    rw [he]
    exact hs
  | flagSetAgain l =>
    obtain ⟨_, he⟩ := s.keepFlag_scan l
    rw [he]
    exact hs
  | write p addr w => exact (s.written_writeAny p addr w).loader_order.2 hs
  | readHeld v => exact ((s.outerFrame_closeWrite v).trans (outerFrame_send _ _ _)).orderAgrees hs
  | claim v =>
    exact (((s.outerFrame_closeWrite v).trans (outerFrame_takeClaim _ _)).trans (outerFrame_send _ _ _)).orderAgrees hs
  | blkDataRead v =>
    exact (((s.outerFrame_closeWrite v).trans (outerFrame_setPort _ _ _)).trans (outerFrame_send _ _ _)).orderAgrees hs
  | commandByte b =>
    obtain ⟨_, _, he⟩ := s.takeCommandByte_eq b
    rw [he]
    exact hs
  | transferEnd => exact hs
  | pointer target b =>
    obtain ⟨_, _, he⟩ := s.takePointer_eq target b
    rw [he]
    exact hs
  | coldReset => exact nodup_orderReset
  | verdict v =>
    obtain ⟨_, _, he⟩ := s.takeVerdict_eq v
    rw [he]
    exact hs
  | undone => exact nodup_orderReset
  | header ws =>
    rw [applyHeader_parts]
    exact OrderAgrees.installOrder (s := (s.addSum ws).headerLevels _) nodup_orderReset _ _
  | regionRecord ws =>
    obtain ⟨_, _, he⟩ := (s.addSum ws).applyRegionRecord_eq ws
    rw [he]
    exact hs
  | pointRecord ws =>
    obtain ⟨_, he⟩ | ⟨n, d, l, _, -, -, he⟩ := (s.addSum ws).applyPointRecord_cases ws
    · rw [he]
      exact hs
    · rw [he]
      exact (OuterFrame.of_tableFrame (tableFrame_defineCore (s.addSum ws) n d)).orderAgrees hs
  | checksum ws =>
    unfold judgeSum
    split_ifs
    · obtain ⟨_, _, _, _, he⟩ := (s.addSum ws).completeLoading_eq
      rw [he]
      exact hs
    · exact nodup_orderReset

/-! #### Loading (R27, R55, R137, R163) -/

/-- Out of loading nothing is held. -/
theorem loadingQuiet_of_not (h : t.loading = false) : t.LoadingQuiet := fun hl => by simp [h] at hl

theorem loadingQuiet_of_frame (h : s.OuterFrame t) (hl : s.loading = false) : t.LoadingQuiet :=
  loadingQuiet_of_not (h.loading.trans hl)

theorem loading_of_tableTurn {r : Requester} (h : s.tableTurn = some r) : s.loading = false := by
  by_contra hl
  rw [tableTurn_loading s (by simpa using hl)] at h
  exact absurd h (by simp)

/-- The engine runs no access while LOADING. -/
theorem LoadingQuiet.loading_of_phase (h : s.LoadingQuiet) (hp : s.bus.phase ≠ .idle) : s.loading = false := by
  by_contra hl
  exact hp (h (by simpa using hl)).1

/-- While LOADING CLK runs the timebase only, no slot, request or set being touched. -/
theorem LoadingQuiet.runClk (h : s.LoadingQuiet) (k : Nat) : (s.runClk k).LoadingQuiet := by
  have hframe := clockOnly_runClk k s
  intro hl
  rw [(OuterFrame.of_clockOnly hframe).loading] at hl
  obtain ⟨hphase, hentry, hslot, hrun, hreq, hsets, hnotify⟩ := h hl
  refine ⟨phase_runClk_idle k hphase, fun r => ?_, fun q => ?_, ?_, ?_, fun v => ?_, ?_⟩
  · rw [hframe]
    exact hentry r
  · rw [hframe]
    exact hslot q
  · rw [hframe]
    exact hrun
  · rw [hframe]
    exact hreq
  · rw [hframe]
    exact hsets v
  · rw [hframe]
    exact hnotify

theorem loadingQuiet_reset : State.reset.LoadingQuiet := fun _ =>
  ⟨rfl, fun r => by rcases r with _ | (_ | _) <;> rfl, fun q => by cases q <;> rfl, rfl, rfl, noticeSet_reset, rfl⟩

theorem LoadingQuiet.closeWrite (h : s.LoadingQuiet) (v : Via) : (s.closeWrite v).LoadingQuiet := by
  cases v <;> exact h

/-- A word sent out touches no slot. -/
theorem LoadingQuiet.send (h : s.LoadingQuiet) (p : Port) (w : Word) : (s.send p w).LoadingQuiet := by
  have hslot : ∀ q, ((s.send p w).slot q).state = (s.slot q).state := fun q => by cases p <;> cases q <;> rfl
  intro hl
  obtain ⟨hphase, hentry, hidle, hrest⟩ := h (by simpa using hl)
  exact ⟨by simpa using hphase, by simpa using hentry, fun q => (hslot q).trans (hidle q), by simpa using hrest⟩

theorem LoadingQuiet.takeVerdict (h : s.LoadingQuiet) (hl : s.loader.state = .verify) (v : Verdict) :
    (s.takeVerdict v).LoadingQuiet := by
  cases v with
  | blank => exact loadingQuiet_of_not rfl
  | bad => exact loadingQuiet_of_not rfl
  | sound => exact fun _ => h (by rw [loading, hl]; rfl)

theorem noticeSet_defineCore_free (d : Definition) (h : (s.point n).causes = 0) (v : Level) :
    (s.defineCore n d).noticeSet v = s.noticeSet v := by
  rw [defineCore_of_causes_eq h]
  simp

/-- A point record defines a FREE point, which no notice set holds. -/
theorem LoadingQuiet.applyPointRecord (h : s.LoadingQuiet) (hp : s.Standing) (hl : s.loading = true) (ws : List Word) :
    (s.applyPointRecord ws).LoadingQuiet := by
  obtain ⟨l, he⟩ | ⟨n, d, l, raw, hfree, hd, he⟩ := s.applyPointRecord_cases ws
  · rw [he]
    exact fun _ => h hl
  · have hcauses : (s.point n).causes = 0 := by
      rw [(hp.records n).free hfree]
      rfl
    have hcore := s.coreFrame_defineCore n d
    obtain ⟨hphase, hentry, hslot, hrun, hreq, hsets, hnotify⟩ := h hl
    intro _
    rw [he]
    refine ⟨?_, fun r => ?_, fun q => ?_, ?_, ?_, fun v => (noticeSet_defineCore_free d hcauses v).trans (hsets v), ?_⟩
    all_goals rw [hcore]
    · exact hphase
    · exact hentry r
    · exact hslot q
    · exact hrun
    · exact hreq
    · exact hnotify

theorem loadingQuiet_judgeSum (s : State) (ws : List Word) : (s.judgeSum ws).LoadingQuiet := by
  unfold State.judgeSum
  split_ifs
  · refine loadingQuiet_of_not ?_
    obtain ⟨x, e, hx⟩ := s.endLoading.writeScanRun_eq s.loader.startScanRun
    unfold completeLoading
    dsimp only
    rw [hx]
    rfl
  · exact loadingQuiet_of_not rfl

/-- Every event keeps the held blocks quiet while LOADING. -/
theorem Effect.loadingQuiet (h : s.Effect t) (hs : s.LoadingQuiet) (hp : s.Standing) : t.LoadingQuiet := by
  cases h with
  | nothing => exact hs
  | command p name c h => exact loadingQuiet_of_frame (.of_tableFrame h.tableFrame) (loading_of_tableTurn h.1)
  | start g h hl => exact loadingQuiet_of_frame (s.outerFrame_takeStart g) hl
  | backN => exact hs
  | beatReleased g a op h => exact loadingQuiet_of_not (hs.loading_of_phase (by simp [h]))
  | beatEnded b g a bd h =>
    have hlevel : s.OuterFrame { s with backAsserted := b } := .refl s
    exact loadingQuiet_of_frame (hlevel.trans (.of_busOnly (busOnly_endBeat _ g a bd))) (hs.loading_of_phase (by simp [h]))
  | timeout g a h => exact loadingQuiet_of_not (hs.loading_of_phase (by simp [h]))
  | completion g c h => exact loadingQuiet_of_frame (.of_tableFrame (s.tableFrame_takeCompletion g c)) h.2
  | clk k => exact hs.runClk k
  | expiry c h =>
    refine loadingQuiet_of_frame (.of_clockOnly (s.clockOnly_takeExpiry c)) ?_
    simp only [expiryDue, timerRuns, Bool.and_eq_true, Bool.not_eq_true'] at h
    exact h.1.2
  | choice h =>
    simp only [mayChoose, Bool.and_eq_true, Bool.not_eq_true'] at h
    exact loadingQuiet_of_frame s.outerFrame_chooseWork h.2
  | visit w h ht =>
    have htaken : s.OuterFrame { s with lastTaken := .scan } := .refl s
    exact loadingQuiet_of_frame (htaken.trans (outerFrame_takeVisit _ w)) (loading_of_tableTurn ht)
  | atn l high =>
    obtain ⟨_, _, he⟩ := s.takeAtn_eq l high
    rw [he]
    exact hs
  | flagSetAgain l hl =>
    obtain ⟨_, he⟩ := s.keepFlag_scan l
    rw [he]
    exact hs
  | write p addr w hl =>
    refine loadingQuiet_of_not ?_
    rw [loading, (s.written_writeAny p addr w).loader_order.1]
    exact hl
  | readHeld v => exact (hs.closeWrite v).send _ _
  | claim v hl =>
    exact loadingQuiet_of_frame
      (((s.outerFrame_closeWrite v).trans (outerFrame_takeClaim _ _)).trans (outerFrame_send _ _ _)) hl
  | blkDataRead v hl =>
    exact loadingQuiet_of_frame
      (((s.outerFrame_closeWrite v).trans (outerFrame_setPort _ _ _)).trans (outerFrame_send _ _ _)) hl
  | commandByte b =>
    obtain ⟨_, _, he⟩ := s.takeCommandByte_eq b
    rw [he]
    exact hs
  | transferEnd => exact hs
  | pointer target b =>
    obtain ⟨_, _, he⟩ := s.takePointer_eq target b
    rw [he]
    exact hs
  | coldReset => exact loadingQuiet_reset
  | verdict v h => exact hs.takeVerdict h v
  | undone => exact loadingQuiet_of_not rfl
  | header ws h =>
    obtain ⟨_, _, _, _, _, _, he⟩ := (s.addSum ws).applyHeader_eq ws
    rw [he]
    exact fun _ => hs (loading_of_apply h)
  | regionRecord ws h =>
    obtain ⟨_, _, he⟩ := (s.addSum ws).applyRegionRecord_eq ws
    rw [he]
    exact fun _ => hs (loading_of_apply h)
  | pointRecord ws h =>
    have hsum : (s.addSum ws).LoadingQuiet := hs
    exact hsum.applyPointRecord (hp.same (s.sameStanding_addSum ws)) (loading_of_apply h) ws
  | checksum ws => exact loadingQuiet_judgeSum _ ws

end Sys2Proof.Machine.State

namespace Sys2Proof.Machine

/-- Settles O6: an empty table is in order, and the reset engine IDLE. -/
theorem resetIsConsistent : Obligations.ResetIsConsistent := by
  have hs : State.reset.Standing := State.standing_of_empty State.point_reset State.chain_reset rfl State.noticeSet_reset
    (fun k => by rw [State.classState_reset]; exact ⟨rfl, rfl⟩) rfl
  obtain ⟨ha, he⟩ := State.reset.engineSound_coldReset false false
  exact hs.consistent ha State.loadingQuiet_reset State.nodup_orderReset he

/-- Settles O7: the sets by `Standing`, the order by its own effects. -/
theorem stepKeepsNoticesAndOrder : Obligations.StepKeepsNoticesAndOrder := by
  intro s t hs h
  obtain ⟨u, hu, he⟩ := State.effect_of_step hs h
  exact ⟨(he.standing hu.standing hu.accessAgrees hu.quietLoad).notices, he.orderAgrees hu.order⟩

/-- Settles O12: the passes by `Standing`, the held blocks by their own effects. -/
theorem stepKeepsTheScanEngine : Obligations.StepKeepsTheScanEngine := by
  intro s t hs h
  obtain ⟨u, hu, he⟩ := State.effect_of_step hs h
  have hstanding : t.Standing := he.standing hu.standing hu.accessAgrees hu.quietLoad
  exact ⟨hstanding.cursorsAgree, hstanding.scan, he.loadingQuiet hu.load hu.standing⟩

end Sys2Proof.Machine

end

/-! ### Events that are not due, and the order of the table engine -/

section

namespace Sys2Proof.Machine

namespace State

variable {s : State} {r : EepromRead} {n : Nat} {apply : State → List Word → State} {due : Bool}

/-! #### The rows of the loader (R178) -/

theorem expectsHeader_iff : s.expectsHeader = true ↔ s.loader.state = .apply ∧ s.loader.headerDone = false := by
  simp [expectsHeader]

theorem expectsRegion_iff : s.expectsRegion = true ↔ s.loader.state = .apply ∧ s.loader.headerDone = true ∧
    s.loader.regionsDone < s.loader.regions := by
  simp [expectsRegion, and_assoc]

theorem expectsPoint_iff : s.expectsPoint = true ↔ s.loader.state = .apply ∧ s.loader.headerDone = true ∧
    s.loader.regions ≤ s.loader.regionsDone ∧ s.loader.pointsDone < s.loader.points := by
  simp [expectsPoint, and_assoc]

theorem expectsChecksum_iff : s.expectsChecksum = true ↔ s.loader.state = .apply ∧ s.loader.headerDone = true ∧
    s.loader.regions ≤ s.loader.regionsDone ∧ s.loader.points ≤ s.loader.pointsDone := by
  simp [expectsChecksum, and_assoc]

/-- What a row of the apply pass does with a transaction (R178, R180). -/
def loaderRow (due : Bool) (n : Nat) (r : EepromRead) (apply : State → List Word → State) (s : State) :
    Host.Outcome State Fault Refusal :=
  if due && s.makes r then done (s.applyTransaction n r.answer apply) else done s

theorem exec_loadHeader (r : EepromRead) (s : State) :
    exec (.loadHeader r) s = loaderRow s.expectsHeader 12 r applyHeader s := rfl

theorem exec_loadRegionRecord (r : EepromRead) (s : State) :
    exec (.loadRegionRecord r) s = loaderRow s.expectsRegion 6 r applyRegionRecord s := rfl

theorem exec_loadPointRecord (r : EepromRead) (s : State) :
    exec (.loadPointRecord r) s = loaderRow s.expectsPoint 14 r applyPointRecord s := rfl

theorem exec_loadChecksum (r : EepromRead) (s : State) :
    exec (.loadChecksum r) s = loaderRow s.expectsChecksum 1 r judgeSum s := rfl

theorem loaderRow_of_not_due (h : due ≠ true) : loaderRow due n r apply s = .next s := by
  simp [loaderRow, h, done]

theorem loaderRow_of_not_makes (h : s.makes r ≠ true) : loaderRow due n r apply s = .next s := by
  simp [loaderRow, h, done]

/-- Fewer bytes than the words need end no transaction (log 15). -/
theorem delivered_of_short {bs : List Byte} (h : bs.length < 2 * n) : delivered n (.bytes bs) = .unfinished := by
  have hlen : (wordsOf bs).length < n := by
    rw [length_wordsOf]
    omega
  rw [delivered, if_pos hlen]

theorem loaderRow_of_short {d : BitVec 7} {x : Word} {bs : List Byte} (h : bs.length < 2 * n) :
    loaderRow due n ⟨d, x, .bytes bs⟩ apply s = .next s := by
  unfold loaderRow applyTransaction
  dsimp only
  rw [delivered_of_short h]
  split_ifs <;> rfl

theorem not_makes_of_address (h : r.device ≠ 0x50 ∨ s.startAddress ≠ some r.start) : s.makes r ≠ true := by
  rw [ne_eq, makes_iff, not_and_or]
  exact h

/-- An unaddressed transaction, of the verify pass or of the apply pass, is not the loader's. -/
theorem exec_of_address {i : Instr}
    (hi : i = .verifyPass r ∨ i = .loadHeader r ∨ i = .loadRegionRecord r ∨ i = .loadPointRecord r ∨ i = .loadChecksum r)
    (h : r.device ≠ 0x50 ∨ s.startAddress ≠ some r.start) : exec i s = .next s := by
  have hm := not_makes_of_address h
  obtain rfl | rfl | rfl | rfl | rfl := hi
  · show execVerifyPass r s = _
    simp [execVerifyPass, hm, done]
  · exact loaderRow_of_not_makes hm
  · exact loaderRow_of_not_makes hm
  · exact loaderRow_of_not_makes hm
  · exact loaderRow_of_not_makes hm

/-! #### The rows of the ports (R166) -/

/-- A register-write row is a `portWrite` with some effect. -/
theorem exec_registerWritten {i : Instr} {v : Via} {addr : BitVec 7} (h : registerWritten i = some (v, addr)) :
    ∃ f : State → State, ∀ s, exec i s = .next (s.portWrite v addr f) := by
  cases i
  all_goals simp only [registerWritten, reduceCtorEq, Option.some.injEq, Prod.mk.injEq] at h
  all_goals
    obtain ⟨rfl, rfl⟩ := h
    exact ⟨_, fun _ => rfl⟩

theorem exec_registerWritten_ignored {i : Instr} {v : Via} {addr : BitVec 7} (hi : registerWritten i = some (v, addr))
    (h : s.takesWord v false addr = false ∨ s.loading = true) : exec i s = .next s := by
  obtain ⟨f, hf⟩ := exec_registerWritten hi
  rw [hf, portWrite_ignored s v addr f h]

/-- A register-read row is a `portRead` that reads 0 while LOADING. -/
theorem exec_registerRead {i : Instr} {v : Via} {addr : BitVec 7} (h : registerRead i = some (v, addr)) :
    ∃ f : State → Word × State, ∀ s, exec i s = .next (s.portRead v addr 0 f) := by
  cases i
  all_goals simp only [registerRead, reduceCtorEq, Option.some.injEq, Prod.mk.injEq] at h
  all_goals
    obtain ⟨rfl, rfl⟩ := h
    exact ⟨_, fun _ => rfl⟩

theorem portRead_of_not_takes {v : Via} {addr : BitVec 7} (w : Word) (f : State → Word × State)
    (h : s.takesWord v true addr = false) : s.portRead v addr w f = s := by
  simp [portRead, h]

/-- While LOADING only the SPI port takes a word, which reads 0 here (R170). -/
theorem portRead_of_loading {v : Via} {addr : BitVec 7} (f : State → Word × State)
    (h : s.takesWord v true addr = true) (hl : s.loading = true) :
    s.portRead v addr 0 f = { s with primary := { s.primary with sent := 0 }, sdo := .word 0 } := by
  cases v with
  | spi =>
    unfold portRead closeWrite
    rw [if_pos h, if_pos hl]
    rfl
  | i2c target => simp [takesWord, hl] at h

/-! #### The events of `NotDue` -/

theorem exec_accessStart_of_not_due (h : (∀ g, s.bus.phase ≠ .granted g) ∨ s.loading = true) :
    exec .accessStart s = .next s := by
  show execAccessStart s = _
  unfold execAccessStart
  cases hp : s.bus.phase with
  | granted g =>
    have hl : s.loading = true := h.resolve_left fun hn => hn g hp
    simp [hl, done]
  | idle | running | reporting => rfl

theorem exec_accessCompletion_of_not_due (h : (∀ g a x, s.bus.phase ≠ .reporting g a x) ∨ s.loading = true) :
    exec .accessCompletion s = .next s := by
  show execAccessCompletion s = _
  unfold execAccessCompletion
  cases hp : s.bus.phase with
  | reporting g a x =>
    have hl : s.loading = true := h.resolve_left fun hn => hn g a x hp
    simp [hl, done]
  | idle | running | granted => rfl

theorem exec_selfPacedBeatEnd_of_not_due (bd : Word)
    (h : ∀ g a, s.bus.phase = .running g a → a.stage ≠ .timed ∨ a.clks < a.cap.accessTime.toNat) :
    exec (.selfPacedBeatEnd bd) s = .next s := by
  show execSelfPacedBeatEnd bd s = _
  unfold execSelfPacedBeatEnd
  cases hp : s.bus.phase with
  | running g a =>
    dsimp only
    rw [if_neg]
    · rfl
    · rintro ⟨hs, hc⟩
      exact (h g a hp).elim (fun hn => hn hs) fun hlt => absurd hc (by omega)
  | idle | granted | reporting => rfl

theorem exec_beatTimeout_of_not_due
    (h : ∀ g a, s.bus.phase = .running g a → a.stage = .timed ∨ a.ticks < a.cap.timeout.toNat * 8) :
    exec .beatTimeout s = .next s := by
  show execBeatTimeout s = _
  unfold execBeatTimeout
  cases hp : s.bus.phase with
  | running g a =>
    dsimp only
    rw [if_neg]
    · rfl
    · rintro ⟨hs, hc⟩
      exact (h g a hp).elim (fun ht => hs ht) fun hlt => absurd hc (Nat.not_le.mpr hlt)
  | idle | granted | reporting => rfl

theorem exec_classTimerExpiry_of_not_due (c : ClassNo) (h : s.scan.run = false ∨ s.loading = true ∨
    (s.classState c).period = 0 ∨ (s.classState c).remaining ≠ 0) : exec (.classTimerExpiry c) s = .next s := by
  have hdue : s.expiryDue c = false := by
    unfold expiryDue timerRuns
    obtain h | h | h | h := h
    · simp [h]
    · simp [h]
    · simp [h]
    · rw [beq_eq_false_iff_ne.mpr h, Bool.and_false]
  show execClassTimerExpiry c s = _
  simp [execClassTimerExpiry, hdue, done]

theorem exec_verifyPass_of_not_due (r : EepromRead) (h : s.loader.state ≠ .verify) :
    exec (.verifyPass r) s = .next s := by
  show execVerifyPass r s = _
  simp [execVerifyPass, h, done]

/-- An event that is not due leaves the state (log 2). -/
theorem exec_of_notDue {i : Instr} (h : s.NotDue i) : exec i s = .next s := by
  cases h with
  | start h => exact exec_accessStart_of_not_due h
  | completion h => exact exec_accessCompletion_of_not_due h
  | beatEnd bd h => exact exec_selfPacedBeatEnd_of_not_due bd h
  | timeout h => exact exec_beatTimeout_of_not_due h
  | expiry c h => exact exec_classTimerExpiry_of_not_due c h
  | atn k =>
    show done (s.takeAtn k (s.line k).live) = _
    rw [takeAtn, if_pos rfl]
    rfl
  | byte b h =>
    show done (s.takeCommandByte b) = _
    unfold takeCommandByte
    cases hs : s.spi with
    | ready => exact absurd hs h
    | active | abandoned => rfl
  | verify r h => exact exec_verifyPass_of_not_due r h
  | header r h => exact loaderRow_of_not_due (mt expectsHeader_iff.mp h)
  | region r h => exact loaderRow_of_not_due (mt expectsRegion_iff.mp h)
  | point r h => exact loaderRow_of_not_due (mt expectsPoint_iff.mp h)
  | checksum r h => exact loaderRow_of_not_due (mt expectsChecksum_iff.mp h)
  | address i r hi h => exact exec_of_address hi h
  | unfinished i d x bs h =>
    obtain ⟨rfl, h⟩ | ⟨rfl, h⟩ | ⟨rfl, h⟩ | ⟨rfl, h⟩ := h <;> exact loaderRow_of_short h
  | write i v addr hi h => exact exec_registerWritten_ignored hi h

/-! #### The order of the table engine (R4) -/

theorem tableTurn_eq_some_iff {q : Requester} : s.tableTurn = some q ↔
    s.loading = false ∧ s.reportWaits = false ∧ s.asksTable q = true ∧
      ∃ before after, rotationAfter s.lastTaken = before ++ q :: after ∧ ∀ x ∈ before, s.asksTable x = false := by
  unfold tableTurn
  split_ifs with h
  · have hno : ¬ (s.loading = false ∧ s.reportWaits = false) := by
      rintro ⟨hl, hr⟩
      simp [hl, hr] at h
    simp only [reduceCtorEq, false_iff]
    exact fun ⟨hl, hr, _⟩ => hno ⟨hl, hr⟩
  · simp only [Bool.or_eq_true, not_or, Bool.not_eq_true] at h
    rw [List.find?_eq_some_iff_append]
    simp [h]

/-- A visit is taken in its turn (R4). -/
theorem exec_visit_of_turn {w : ScanWork} (hr : s.scan.req = .visiting w) (ht : s.tableTurn = some .scan) :
    exec .visit s = .next ({ s with lastTaken := .scan }.takeVisit w) := by
  show execVisit s = _
  unfold execVisit
  rw [hr]
  exact if_pos ht

theorem exec_visit_of_not_turn (h : s.tableTurn ≠ some .scan) : exec .visit s = .next s := by
  show execVisit s = _
  unfold execVisit
  split
  · exact if_neg h
  all_goals rfl

/-- The scan engine asks the table engine for a visit only (R61). -/
theorem asksTable_scan (h : s.asksTable .scan = true) : ∃ w, s.scan.req = .visiting w := by
  unfold asksTable at h
  cases hr : s.scan.req with
  | visiting w => exact ⟨w, rfl⟩
  | free | requested => simp [hr] at h

theorem lastTaken_rule (s : State) (n : PointNo) : (s.rule n).lastTaken = s.lastTaken := by
  unfold rule
  dsimp only
  split_ifs
  · rfl
  · rfl
  · rw [busOnly_placeRequest]

theorem lastTaken_takeVisit (s : State) (w : ScanWork) : (s.takeVisit w).lastTaken = s.lastTaken := by
  cases w with
  | pass c =>
    show (s.visitPass c).lastTaken = _
    unfold visitPass
    split
    · rfl
    · exact s.lastTaken_rule _
  | sweep r =>
    show (s.visitSweep r).lastTaken = _
    unfold visitSweep
    split
    · rfl
    · exact s.lastTaken_rule _

theorem lastTaken_foldl_retirePoint (ns : List PointNo) (s : State) :
    (ns.foldl State.retirePoint s).lastTaken = s.lastTaken := by
  induction ns generalizing s with
  | nil => rfl
  | cons n ns ih => simp [ih]

/-- A command leaves the order of the table engine, which its taking has set. -/
theorem lastTaken_commandAct (name : CmdName) (p : Port) (c : Command) (s : State) :
    (commandAct name p c s).lastTaken = s.lastTaken := by
  have hmodify : ∀ n d, (s.modifyCore n d).lastTaken = s.lastTaken := fun n d => by rw [s.coreFrame_modifyCore n d]
  cases name with
  | define =>
    show (takeDefine p c s).lastTaken = _
    unfold takeDefine
    dsimp only
    split_ifs
    · split <;> simp
    · simp
  | modify =>
    show (takeModify p c s).lastTaken = _
    unfold takeModify
    dsimp only
    split
    · simp
    · split <;> simp [hmodify]
  | retire =>
    show (takeRetire p c s).lastTaken = _
    unfold takeRetire
    dsimp only
    split
    · simp
    · split_ifs <;> simp
  | hold =>
    show (takeHold p c s).lastTaken = _
    unfold takeHold
    dsimp only
    split <;> simp
  | release =>
    show (takeRelease p c s).lastTaken = _
    unfold takeRelease
    dsimp only
    split <;> simp
  | read =>
    show (takeRead p c s).lastTaken = _
    simp [takeRead]
  | readNow =>
    show (takeReadNow p c s).lastTaken = _
    unfold takeReadNow
    dsimp only
    split
    · simp
    · split_ifs <;> simp
  | write =>
    show (takeWrite p c s).lastTaken = _
    unfold takeWrite awaitWrite
    dsimp only
    split_ifs <;> simp
  | setRegion =>
    show (takeSetRegion p c s).lastTaken = _
    unfold takeSetRegion
    split
    next u hu =>
      obtain ⟨r, -, rfl⟩ := storeRegion_ok hu
      simp
    next => simp
  | getRegion =>
    show (takeGetRegion p c s).lastTaken = _
    unfold takeGetRegion
    split_ifs <;> simp
  | setClass =>
    show (takeSetClass p c s).lastTaken = _
    unfold takeSetClass
    split_ifs <;> simp
  | getClass =>
    show (takeGetClass p c s).lastTaken = _
    unfold takeGetClass
    split <;> simp
  | clearAll =>
    show (takeClearAll p c s).lastTaken = _
    unfold takeClearAll
    dsimp only
    split_ifs
    · simp
    · split <;> simp [lastTaken_foldl_retirePoint]
  | dismiss => rfl
  | unknown =>
    show (takeBadCommand p c s).lastTaken = _
    simp [takeBadCommand]

/-- A command row out of turn leaves the state (log 3). -/
theorem exec_commandRow_of_not_next {name : CmdName} {p : Port} {i : Instr} (hi : commandRow name p = some i)
    (h : ∀ c, ¬ s.NextCommand p name c) : exec i s = .next s := by
  rw [exec_commandRow hi]
  refine onCommand_notTaken (Option.eq_none_iff_forall_ne_some.mpr fun c hc => h c ?_)
  exact takenCommand_eq_some.mp hc

end State

/-- Settles O4: `tableTurn` finds the first in the rotation that asks, and the rows go by it. -/
theorem tableEngineTakesRequestsInOrder : Obligations.TableEngineTakesRequestsInOrder := by
  refine ⟨fun s h => ?_, fun s r => State.tableTurn_eq_some_iff, rfl, rfl, rfl,
    fun s name p i hi h => State.exec_commandRow_of_not_next hi h, fun s name p i c hi h => ?_,
    fun s h => State.exec_visit_of_not_turn h, fun s h => ?_⟩
  · rw [State.tableTurn, if_pos (by simpa using h)]
  · exact ⟨_, h.exec_row hi, State.lastTaken_commandAct name p c _⟩
  · obtain ⟨-, -, hasks, -⟩ := State.tableTurn_eq_some_iff.mp h
    obtain ⟨w, hw⟩ := State.asksTable_scan hasks
    exact ⟨_, State.exec_visit_of_turn hw h, State.lastTaken_takeVisit _ w⟩

/-- Settles O3: the events of `NotDue`, and a read that is not taken or finds the part LOADING. -/
theorem eventsNotDueChangeNothing : Obligations.EventsNotDueChangeNothing := by
  refine ⟨fun s i h => State.exec_of_notDue h, fun s i v addr hi => ?_⟩
  obtain ⟨f, hf⟩ := State.exec_registerRead hi
  exact ⟨fun h => by rw [hf, State.portRead_of_not_takes 0 f h], fun h hl => by rw [hf, State.portRead_of_loading f h hl]⟩

end Sys2Proof.Machine

end

/-! ### Formats: fields of words read back (R173 to R175) -/

section

namespace Sys2Proof.Machine

/-! #### Numbers placed in a word -/

theorem getLsbD_place (p n i : Nat) :
    (place p n).getLsbD i = (decide (i < 16) && !decide (i < p) && n.testBit (i - p)) := by
  rw [place, BitVec.getLsbD_shiftLeft, BitVec.getLsbD_ofNat]
  by_cases h : i < 16
  · have hp : i - p < 16 := by omega
    simp [h, hp]
  · simp [h]

theorem testBit_field (w : Word) (pos len i : Nat) :
    (field w pos len).testBit i = (decide (i < len) && w.getLsbD (pos + i)) := by
  rw [field, ← BitVec.getLsbD, BitVec.getLsbD_extractLsb']

theorem field_or (x y : Word) (pos len : Nat) : field (x ||| y) pos len = field x pos len ||| field y pos len := by
  refine Nat.eq_of_testBit_eq fun i => ?_
  simp [testBit_field, Bool.and_or_distrib_left]

theorem flag_or (x y : Word) (i : Nat) : flag (x ||| y) i = (flag x i || flag y i) := by simp [flag]

/-- A number in its place is read back. -/
theorem field_place_self {pos len n : Nat} (hn : n < 2 ^ len) (hl : pos + len ≤ 16) : field (place pos n) pos len = n := by
  refine Nat.eq_of_testBit_eq fun i => ?_
  rw [testBit_field, getLsbD_place]
  by_cases hi : i < len
  · have hlt : pos + i < 16 := by omega
    simp [hi, hlt]
  · have hzero : n.testBit i = false :=
      Nat.testBit_lt_two_pow (hn.trans_le (Nat.pow_le_pow_right (by omega) (by omega)))
    simp [hi, hzero]

/-- A number below a field is not seen in it. -/
theorem field_place_below {p pos len n : Nat} (hn : n < 2 ^ (pos - p)) : field (place p n) pos len = 0 := by
  refine Nat.eq_of_testBit_eq fun i => ?_
  have hzero : n.testBit (pos + i - p) = false :=
    Nat.testBit_lt_two_pow (hn.trans_le (Nat.pow_le_pow_right (by omega) (by omega)))
  simp [testBit_field, getLsbD_place, hzero]

/-- A number above a field is not seen in it. -/
theorem field_place_above {p pos len n : Nat} (h : pos + len ≤ p) : field (place p n) pos len = 0 := by
  refine Nat.eq_of_testBit_eq fun i => ?_
  rw [testBit_field, getLsbD_place, Nat.zero_testBit]
  by_cases hi : i < len
  · have hlt : pos + i < p := by omega
    simp [hlt]
  · simp [hi]

theorem flag_place_below {p i n : Nat} (hn : n < 2 ^ (i - p)) : flag (place p n) i = false := by
  rw [flag, getLsbD_place, Nat.testBit_lt_two_pow hn, Bool.and_false]

theorem flag_place_above {p i n : Nat} (h : i < p) : flag (place p n) i = false := by
  simp [flag, getLsbD_place, h]

theorem flag_bitAt_self {i : Nat} (b : Bool) (h : i < 16) : flag (bitAt i b) i = b := by
  cases b with
  | false => exact flag_place_below (by simp)
  | true => simp [flag, bitAt, getLsbD_place, h]

theorem flag_bitAt_ne {p i : Nat} (b : Bool) (h : p ≠ i) : flag (bitAt p b) i = false := by
  rcases Nat.lt_or_gt_of_ne h with hlt | hgt
  · refine flag_place_below ?_
    have hone : 1 < 2 ^ (i - p) := Nat.one_lt_two_pow (by omega)
    cases b
    · simp
    · simpa using by omega
  · exact flag_place_above hgt

theorem field_bitAt_below {p pos len : Nat} (b : Bool) (h : p < pos) : field (bitAt p b) pos len = 0 := by
  refine field_place_below ?_
  have hone : 1 < 2 ^ (pos - p) := Nat.one_lt_two_pow (by omega)
  cases b
  · simp
  · simpa using by omega

theorem field_bitAt_above {p pos len : Nat} (b : Bool) (h : pos + len ≤ p) : field (bitAt p b) pos len = 0 :=
  field_place_above h

/-! #### Codes -/

theorem Kind.ofCode_code (k : Kind) : Kind.ofCode k.code = some k := by cases k <;> rfl

theorem Width.ofCode_code (w : Width) : Width.ofCode w.code = some w := by cases w <;> rfl

theorem classOfCode_classCode (c : ClassSel) : classOfCode (classCode c) = some c := by
  cases c with
  | none => rfl
  | some c => fin_cases c <;> rfl

theorem Kind.code_lt (k : Kind) : k.code < 3 := by cases k <;> decide

theorem Width.code_lt (w : Width) : w.code < 3 := by cases w <;> decide

theorem classCode_lt (c : ClassSel) : classCode c < 5 := by
  cases c with
  | none => decide
  | some c => exact Nat.lt_of_lt_of_le c.isLt (by decide)

theorem Health.code_lt (x : Health) : x.code < 6 := by cases x <;> decide

theorem InFlight.code_lt (x : InFlight) : x.code < 3 := by cases x <;> decide

theorem Alarm.code_lt (x : Alarm) : x.code < 3 := by cases x <;> decide

theorem holderCode_lt (x : Option Port) : holderCode x < 3 := by
  rcases x with _ | (_ | _) <;> decide

theorem pointOrEnd_le (x : Option PointNo) : pointOrEnd x ≤ 256 := by
  cases x with
  | none => decide
  | some p => exact p.isLt.le

/-! #### Addresses (R173, R175) -/

theorem addressOf_parts (x : BitVec 24) : addressOf (x.extractLsb' 16 8) (x.extractLsb' 0 16) = x := by
  refine BitVec.eq_of_getLsbD_eq fun i hi => ?_
  simp only [addressOf, BitVec.getLsbD_or, BitVec.getLsbD_shiftLeft, BitVec.getLsbD_setWidth,
    BitVec.getLsbD_extractLsb']
  by_cases h : i < 16
  · simp [h, hi]
  · have h8 : i - 16 < 8 := by omega
    have h24 : i - 16 < 24 := by omega
    have heq : 16 + (i - 16) = i := by omega
    simp [h, hi, h8, h24, heq]

/-! #### The region record (R175) -/

theorem flag_regionWord (n : RegionNo) (g : Region) : flag (regionWord n g 1) 0 = g.enable ∧
    flag (regionWord n g 1) 1 = g.readOnly ∧ flag (regionWord n g 1) 2 = g.primaryOnly ∧
    flag (regionWord n g 1) 3 = (g.order == .highFirst) ∧ flag (regionWord n g 1) 4 = (g.pacing == .device) := by
  simp [regionWord, flag_or, flag_bitAt_self, flag_bitAt_ne, flag_place_above]

theorem sizeCode_regionWord (n : RegionNo) (g : Region) : (regionWord n g 1).extractLsb' 8 5 = g.sizeCode := by
  refine BitVec.eq_of_toNat_eq ?_
  show field (regionWord n g 1) 8 5 = g.sizeCode.toNat
  simp only [regionWord, field_or]
  rw [field_bitAt_below _ (by decide), field_bitAt_below _ (by decide), field_bitAt_below _ (by decide),
    field_bitAt_below _ (by decide), field_bitAt_below _ (by decide), field_place_self g.sizeCode.isLt (by decide)]
  simp

theorem ofWords_regionWord (n : RegionNo) (g : Region) : Region.ofWords (regionWord n g) = g := by
  obtain ⟨henable, hread, hprimary, horder, hpacing⟩ := flag_regionWord n g
  have haccess : (regionWord n g 4).extractLsb' 0 6 = g.accessTime :=
    BitVec.eq_of_toNat_eq (field_place_self g.accessTime.isLt (by decide))
  have hbase : addressOf (loByte (regionWord n g 2)) (regionWord n g 3) = g.base := by
    simp [regionWord, addressOf_parts]
  have htimeout : loByte (regionWord n g 5) = g.timeout := by simp [regionWord]
  unfold Region.ofWords
  rw [henable, hread, hprimary, horder, hpacing, haccess, hbase, htimeout, sizeCode_regionWord]
  cases g with
  | mk enable base size ro po order pacing access timeout => cases order <;> cases pacing <;> rfl

/-- Settles O14: `ofWords_regionWord`. -/
theorem regionRecordReadsBack : Obligations.RegionRecordReadsBack := fun n g =>
  ⟨ofWords_regionWord n g, by
    have hn := n.isLt
    show (place 0 n.val).toNat = n.val
    simp [place]
    omega⟩

/-! #### The definition block (R173) -/

/-- A definition as the fields of its own definition block. -/
def Definition.raw (d : Definition) : RawDef where
  kind := some d.kind
  width := some d.width
  signed := d.signed
  cls := some d.cls
  level := d.level
  attnRead := d.attnRead
  verify := d.verify
  limits := d.limits
  prefixed := d.prefixed
  region := d.region.val
  offset := d.offset
  deadband := d.deadband
  low := d.low
  high := d.high
  hyst := d.hyst
  staleAt := d.staleAt
  faultAt := d.faultAt
  blockLen := d.blockLen
  causeEn := d.causeEn
  initShadow := d.initShadow

/-- A definition is given by its own block again. -/
theorem RawDef.Gives.raw {raw : RawDef} {d : Definition} (h : raw.Gives d) : d.raw.Gives d := by
  obtain ⟨-, -, -, -, -, -, -, -, hrest⟩ := h
  refine ⟨rfl, rfl, rfl, rfl, rfl, rfl, rfl, rfl, ?_⟩
  cases hk : d.kind with
  | input =>
    simp only [hk] at hrest
    obtain ⟨-, -, -, hlimits, -, hnumbers, hrest⟩ := hrest
    refine ⟨rfl, rfl, rfl, rfl, rfl, ?_, hrest⟩
    show _ = if d.limits = true then (d.low, d.high, d.hyst) else (0, 0, 0)
    split_ifs with hl
    · rfl
    · rw [← hlimits, if_neg hl] at hnumbers
      exact hnumbers
  | output =>
    simp only [hk] at hrest
    obtain ⟨-, -, -, hrest⟩ := hrest
    exact ⟨rfl, rfl, rfl, hrest⟩
  | block =>
    simp only [hk] at hrest
    obtain ⟨hwidth, -, -, -, hrest⟩ := hrest
    exact ⟨hwidth, rfl, rfl, rfl, hrest⟩

/-- A block gives one definition. -/
theorem RawDef.Gives.unique {raw : RawDef} {d e : Definition} (h : raw.Gives d) (h' : raw.Gives e) : d = e := by
  obtain ⟨hk, hc, hr, hl, ho, hs, hf, he, hrest⟩ := h
  obtain ⟨hk', hc', hr', hl', ho', hs', hf', he', hrest'⟩ := h'
  obtain ⟨kind, width, signed, cls, level, attn, verify, limits, prefixed, region, offset, deadband, low, high, hyst,
    staleAt, faultAt, blockLen, causeEn, shadow⟩ := d
  obtain ⟨kind', width', signed', cls', level', attn', verify', limits', prefixed', region', offset', deadband', low',
    high', hyst', staleAt', faultAt', blockLen', causeEn', shadow'⟩ := e
  obtain rfl : kind = kind' := Option.some.inj (hk.symm.trans hk')
  obtain rfl : cls = cls' := Option.some.inj (hc.symm.trans hc')
  obtain rfl : region = region' := Fin.ext (hr.symm.trans hr')
  cases kind with
  | input =>
    obtain ⟨hwidth, hsigned, hattn, hlimits, hdeadband, hnumbers, hrest⟩ := hrest
    obtain ⟨hwidth', hsigned', hattn', hlimits', hdeadband', hnumbers', hrest'⟩ := hrest'
    have heq := hnumbers.trans hnumbers'.symm
    clear hnumbers hnumbers'
    simp_all
  | output | block => simp_all

theorem RawDef.Gives.fieldsValid {raw : RawDef} {d : Definition} {m : Option Kind} (h : raw.Gives d)
    (hv : raw.FieldsValid m) : d.raw.FieldsValid m := by
  obtain ⟨k, hk, hm, -, -, hio, hblock, hstale, hle, hfault, hlimits⟩ := hv
  obtain ⟨hkind, -, -, -, ho, hs, hf, -, hrest⟩ := h
  obtain rfl : k = d.kind := Option.some.inj (hk.symm.trans hkind)
  refine ⟨d.kind, rfl, hm, ⟨d.cls, rfl⟩, d.region.isLt, fun hne => ?_, fun hb => ?_, ?_, ?_, ?_, fun hi hl => ?_⟩
  · obtain ⟨w, hw, hoff⟩ := hio hne
    have hwidth : d.width = w := by
      cases hd : d.kind with
      | input | output =>
        simp only [hd] at hrest
        exact Option.some.inj (hrest.1.symm.trans hw)
      | block => exact absurd hd hne
    refine ⟨d.width, rfl, ?_⟩
    show d.offset.toNat % d.width.bytes = 0
    rw [ho, hwidth]
    exact hoff
  · have hlen : d.blockLen = raw.blockLen := by
      simp only [hb] at hrest
      exact hrest.2.2.2.1
    show d.offset.toNat % 2 = 0 ∧ 1 ≤ d.blockLen ∧ d.blockLen ≤ 32
    rw [ho, hlen]
    exact hblock hb
  · show 1 ≤ d.staleAt
    rwa [hs]
  · show d.staleAt ≤ d.faultAt
    rwa [hs, hf]
  · show d.faultAt ≤ 15
    rwa [hf]
  · simp only [hi] at hrest
    obtain ⟨-, hsigned, -, hl', -, hnumbers, -⟩ := hrest
    have hlim : raw.limits = true := hl' ▸ hl
    rw [hlim, if_pos rfl, Prod.mk.injEq, Prod.mk.injEq] at hnumbers
    obtain ⟨hlow, hhigh, -⟩ := hnumbers
    show reading d.signed d.low ≤ reading d.signed d.high
    rw [hsigned, hlow, hhigh]
    exact hlimits hi hlim

/-- The block of an accepted definition is accepted as the same. -/
theorem RawDef.check_raw {raw : RawDef} {m : Option Kind} {d : Definition} (h : raw.check m = some d) :
    d.raw.check m = some d := by
  have hvalid := valid_of_check h
  obtain ⟨d', hd', hgives⟩ := check_of_valid hvalid
  obtain rfl : d = d' := Option.some.inj (h.symm.trans hd')
  obtain ⟨e, he, hgives'⟩ := check_of_valid (hgives.fieldsValid hvalid)
  rw [he, hgives'.unique hgives.raw]

/-- The definition words of a record, as a definition block. -/
theorem ofWords_definitionWord {r : Point} {d : Definition} (h : d.onto r = r)
    (hshadow : d.initShadow = match d.kind with | .output => loWord r.shadow | .input | .block => 0)
    (hstale : d.staleAt ≤ 15) (hfault : d.faultAt ≤ 15) (hlen : d.blockLen ≤ 32) :
    RawDef.ofWords (definitionWord r) = d.raw := by
  have hkind := d.kind.code_lt
  have hwidth := d.width.code_lt
  have hcls := classCode_lt d.cls
  have hregion := d.region.isLt
  have hoffset : (d.offset.extractLsb' 16 8).toNat < 256 := BitVec.isLt _
  have hlevel : d.level.val < 8 := d.level.isLt
  have hword : ∀ i, i < 12 → definitionWord r i = definitionWord (d.onto r) i := fun i _ => by rw [h]
  have hlast : definitionWord r 12 = d.initShadow := by
    have hk : r.kind = d.kind := by rw [← h]; rfl
    rw [hshadow, ← hk]
    cases hk' : r.kind <;> simp [definitionWord, hk']
  have haddress : loByte (definitionWord (d.onto r) 2) = d.offset.extractLsb' 16 8 := by
    refine BitVec.eq_of_toNat_eq ?_
    show field (definitionWord (d.onto r) 2) 0 8 = _
    simp (disch := omega) [definitionWord, Definition.onto, field_or, field_place_self, field_place_above]
  unfold RawDef.ofWords Definition.raw
  simp only [hword 0 (by decide), hword 1 (by decide), hword 2 (by decide), hword 3 (by decide), hword 4 (by decide),
    hword 5 (by decide), hword 6 (by decide), hword 7 (by decide), hword 8 (by decide), hword 9 (by decide),
    hword 10 (by decide), hword 11 (by decide), hlast, haddress]
  simp (disch := omega) [definitionWord, Definition.onto, field_or, flag_or, field_place_self, field_place_above,
    field_place_below, field_bitAt_above, field_bitAt_below, flag_place_above, flag_place_below, flag_bitAt_self,
    flag_bitAt_ne, Kind.ofCode_code, Width.ofCode_code, classOfCode_classCode, addressOf_parts]

/-! #### The snapshot (R41, R174) -/

theorem getD_resultArea (f : Nat → Word) (k : Nat) : (State.resultArea f).toList.getD k 0 = if k < 64 then f k else 0 := by
  by_cases h : k < 64
  · simp [State.resultArea, tabulate, h]
  · simp [State.resultArea, tabulate, h]

theorem RawDef.ofWords_congr {w w' : Nat → Word} (h : ∀ i, i < 13 → w i = w' i) :
    RawDef.ofWords w = RawDef.ofWords w' := by
  unfold RawDef.ofWords
  simp only [h 0 (by decide), h 1 (by decide), h 2 (by decide), h 3 (by decide), h 4 (by decide), h 5 (by decide),
    h 6 (by decide), h 7 (by decide), h 8 (by decide), h 9 (by decide), h 10 (by decide), h 11 (by decide),
    h 12 (by decide)]

theorem State.snapshot_definition (s : State) (n : PointNo) {i : Nat} (h : i < 13) :
    (s.snapshot n).toList.getD (8 + i) 0 = definitionWord (s.point n) i := by
  have hi : 8 + i - 8 = i := by omega
  rw [State.snapshot, getD_resultArea, if_pos (by omega), if_neg (by omega), if_pos (by omega), hi]

theorem State.snapshot_header (s : State) (n : PointNo) {k : Nat} (h : k < 8) :
    (s.snapshot n).toList.getD k 0 = headerWord (s.point n) k := by
  rw [State.snapshot, getD_resultArea, if_pos (by omega), if_pos h]

theorem State.snapshot_gap (s : State) (n : PointNo) {k : Nat} (h : 21 ≤ k) (h' : k < 24) :
    (s.snapshot n).toList.getD k 0 = 0 := by
  rw [State.snapshot, getD_resultArea, if_pos (by omega), if_neg (by omega), if_neg (by omega), if_pos h']

theorem State.snapshot_block (s : State) (n : PointNo) {i : Nat} (h : i < 32) : (s.snapshot n).toList.getD (24 + i) 0 =
    if (s.point n).kind = .block ∧ i < (s.point n).blockLen then s.blockWord (s.point n) i else 0 := by
  have hi : 24 + i - 24 = i := by omega
  rw [State.snapshot, getD_resultArea, if_pos (by omega), if_neg (by omega), if_neg (by omega), if_neg (by omega),
    if_pos (by omega), hi]
  cases hk : (s.point n).kind <;> simp

theorem State.snapshot_tail (s : State) (n : PointNo) {k : Nat} (h : 56 ≤ k) (h' : k < 64) :
    (s.snapshot n).toList.getD k 0 = 0 := by
  rw [State.snapshot, getD_resultArea, if_pos h', if_neg (by omega), if_neg (by omega), if_neg (by omega),
    if_neg (by omega)]

/-- Settles O13: the definition words are the block `Definition.raw`, which is accepted as the definition it came from. -/
theorem definitionBlockReadsBack : Obligations.DefinitionBlockReadsBack := by
  intro s n raw m d hcheck honto hshadow
  obtain ⟨d', hd', hgives⟩ := RawDef.check_of_valid (RawDef.valid_of_check hcheck)
  obtain rfl : d = d' := Option.some.inj (hcheck.symm.trans hd')
  obtain ⟨k, hk, -, -, -, -, hblock, -, hle, hfault, -⟩ := RawDef.valid_of_check hcheck
  obtain ⟨hkind, -, -, -, -, hs, hf, -, hrest⟩ := hgives
  obtain rfl : k = d.kind := Option.some.inj (hk.symm.trans hkind)
  rw [RawDef.ofWords_congr fun i hi => s.snapshot_definition n hi, ofWords_definitionWord honto]
  · exact RawDef.check_raw hcheck
  · cases hd : d.kind with
    | input | block =>
      simp only [hd] at hrest
      simp [hrest]
    | output => exact (hshadow hd).symm
  · rw [hs]
    exact hle.trans hfault
  · rwa [hf]
  · cases hd : d.kind with
    | input | output =>
      simp only [hd] at hrest
      simp [hrest]
    | block =>
      simp only [hd] at hrest
      rw [hrest.2.2.2.1]
      exact (hblock hd).2.2

/-- The header of a snapshot (R174). -/
theorem headerWord_fields (r : Point) (hfails : r.fails ≤ 15) (hprobe : r.probe ≤ 7) (hmismatches : r.mismatches ≤ 255)
    (hlen : r.lastLen ≤ 32) :
    field (headerWord r 0) 0 3 = r.state.code ∧ field (headerWord r 0) 3 2 = r.kind.code ∧
    field (headerWord r 0) 5 2 = holderCode r.holder ∧ field (headerWord r 0) 7 2 = r.inFlight.code ∧
    flag (headerWord r 0) 9 = r.redefined ∧ flag (headerWord r 0) 10 = r.writeAgain ∧
    field (headerWord r 0) 11 2 = r.alarm.code ∧ field (headerWord r 0) 13 3 = 0 ∧
    hiByte (headerWord r 1) = r.causeEn ∧ loByte (headerWord r 1) = r.causes ∧
    field (headerWord r 2) 0 4 = r.fails ∧ field (headerWord r 2) 4 3 = r.probe ∧
    flag (headerWord r 2) 7 = false ∧ field (headerWord r 2) 8 8 = r.mismatches ∧
    field (headerWord r 3) 0 9 = pointOrEnd r.next ∧ flag (headerWord r 3) 9 = false ∧
    field (headerWord r 3) 10 6 = r.lastLen ∧
    longOf (headerWord r 4) (headerWord r 5) = r.value ∧
    longOf (headerWord r 6) (headerWord r 7) =
      (match r.kind with | .input => r.reference | .output => r.shadow | .block => 0) := by
  have hstate := r.state.code_lt
  have hkind := r.kind.code_lt
  have hholder := holderCode_lt r.holder
  have hflight := r.inFlight.code_lt
  have halarm := r.alarm.code_lt
  have hnext := pointOrEnd_le r.next
  have hvalue : longOf (headerWord r 6) (headerWord r 7) =
      (match r.kind with | .input => r.reference | .output => r.shadow | .block => 0) := by
    cases hk : r.kind with
    | input | output => simp only [headerWord, hk, longOf_hi_lo]
    | block =>
      simp only [headerWord, hk]
      rfl
  simp (disch := omega) [headerWord, field_or, flag_or, field_place_self, field_place_above, field_place_below,
    field_bitAt_above, field_bitAt_below, flag_place_above, flag_place_below, flag_bitAt_self, flag_bitAt_ne]
  exact hvalue

/-- Settles O15: the header words field by field, the others by the layout of the snapshot. -/
theorem snapshotHeaderPlacesEveryField : Obligations.SnapshotHeaderPlacesEveryField := by
  intro s n
  refine ⟨fun hfails hprobe hmismatches hlen => ?_, fun i hi => s.snapshot_definition n hi,
    s.snapshot_gap n le_rfl (by decide), s.snapshot_gap n (by decide) (by decide),
    s.snapshot_gap n (by decide) (by decide), fun i hi => s.snapshot_block n hi,
    fun i hi => s.snapshot_tail n (by omega) (by omega)⟩
  simp only [s.snapshot_header n (k := 0) (by decide), s.snapshot_header n (k := 1) (by decide),
    s.snapshot_header n (k := 2) (by decide), s.snapshot_header n (k := 3) (by decide),
    s.snapshot_header n (k := 4) (by decide), s.snapshot_header n (k := 5) (by decide),
    s.snapshot_header n (k := 6) (by decide), s.snapshot_header n (k := 7) (by decide)]
  exact headerWord_fields _ hfails hprobe hmismatches hlen

/-- Settles O16: the check of the fields is `RawDef.check`, and region and pool follow in this order. -/
theorem definitionIsCheckedInOrder : Obligations.DefinitionIsCheckedInOrder := by
  intro s raw m held
  refine ⟨fun hbad => ?_, fun hvalid => ?_⟩
  · have hnone : raw.check m = none := Option.eq_none_iff_forall_ne_some.mpr fun d hd => hbad (RawDef.valid_of_check hd)
    simp [State.checkDefinition, hnone]
  · obtain ⟨d, hd, hgives⟩ := RawDef.check_of_valid hvalid
    have hfits := s.regionFits_iff d
    refine ⟨d, hgives, fun hno => ?_, fun hyes hspace => ?_, fun hyes hspace => ?_⟩
    · simp [State.checkDefinition, hd, mt hfits.mp hno]
    · have hshort : ¬ segmentsFor d.blockLen - held ≤ s.freeSegs.length := by
        rw [segmentsFor]
        omega
      simp [State.checkDefinition, hd, hfits.mpr hyes, hshort]
    · have henough : segmentsFor d.blockLen - held ≤ s.freeSegs.length := hspace
      simp [State.checkDefinition, hd, hfits.mpr hyes, henough]

end Sys2Proof.Machine

end

/-! ### Cold reset, the timeout, and the commands that touch one part -/

section

namespace Sys2Proof.Machine

theorem AccessKind.isWrite_iff (k : AccessKind) : k.isWrite = true ↔ k = .write ∨ k = .writeVerify := by
  cases k <;> simp [AccessKind.isWrite]

/-- A failed access has no data but a write's driven value (R78). -/
theorem completionOf_of_ne (a : Access) {o : Outcome} (h : o ≠ .ok) :
    completionOf a o = ⟨a.kind, o, none, if a.kind.isWrite then some a.driven else none, none, none⟩ := by
  simp [completionOf, h]

namespace State

variable {s t : State} {p : Port} {c : Command} {code : ResultCode} {n : PointNo}

/-! #### Commands that are refused (R33) -/

/-- A command whose act completes with a code only is refused. -/
theorem NextCommand.refusedWith {name : CmdName} {i : Instr} (h : s.NextCommand p name c)
    (hi : commandRow name p = some i)
    (ha : commandAct name p c { s with lastTaken := .slot p } = ({ s with lastTaken := .slot p } : State).completeZero p code) :
    s.RefusedWith i p code :=
  refusedWith_of_completeZero (by rw [h.exec_row hi, ha])

theorem takeDefine_of_not_free (h : (s.point (operandPoint c)).state ≠ .free) :
    takeDefine p c s = s.completeZero p .notFree := if_neg h

theorem takeDefine_of_error (h : (s.point (operandPoint c)).state = .free)
    (he : s.checkDefinition (RawDef.ofWords (paramWord c)) none 0 = .error code) :
    takeDefine p c s = s.completeZero p code := by
  unfold takeDefine
  dsimp only
  rw [if_pos h, he]

theorem takeDefine_of_ok {d : Definition} (h : (s.point (operandPoint c)).state = .free)
    (hd : s.checkDefinition (RawDef.ofWords (paramWord c)) none 0 = .ok d) :
    takeDefine p c s = (s.defineCore (operandPoint c) d).completeSnapshot p .ok (operandPoint c) := by
  unfold takeDefine
  dsimp only
  rw [if_pos h, hd]

theorem takeModify_of_refusal (h : s.refusal p (operandPoint c) true = some code) :
    takeModify p c s = s.completeZero p code := by
  unfold takeModify
  dsimp only
  rw [h]

theorem takeModify_of_error (h : s.refusal p (operandPoint c) true = none)
    (he : s.checkDefinition (RawDef.ofWords (paramWord c)) (some (s.point (operandPoint c)).kind)
      (s.point (operandPoint c)).segments.length = .error code) : takeModify p c s = s.completeZero p code := by
  unfold takeModify
  dsimp only
  rw [h]
  dsimp only
  rw [he]

theorem takeModify_of_ok {d : Definition} (h : s.refusal p (operandPoint c) true = none)
    (hd : s.checkDefinition (RawDef.ofWords (paramWord c)) (some (s.point (operandPoint c)).kind)
      (s.point (operandPoint c)).segments.length = .ok d) :
    takeModify p c s = (s.modifyCore (operandPoint c) d).completeSnapshot p .ok (operandPoint c) := by
  unfold takeModify
  dsimp only
  rw [h]
  dsimp only
  rw [hd]

theorem takeRetire_of_refusal (h : s.refusal p (operandPoint c) true = some code) :
    takeRetire p c s = s.completeZero p code := by
  unfold takeRetire
  dsimp only
  rw [h]

theorem takeRetire_of_idle (h : s.refusal p (operandPoint c) true = none)
    (hf : (s.point (operandPoint c)).inFlight = .none) :
    takeRetire p c s = (s.retirePoint (operandPoint c)).complete p .ok zeroArea := by
  unfold takeRetire
  dsimp only
  rw [h]
  exact if_pos hf

theorem takeRetire_of_flight (h : s.refusal p (operandPoint c) true = none)
    (hf : (s.point (operandPoint c)).inFlight ≠ .none) :
    takeRetire p c s = (s.retirePoint (operandPoint c)).enterPhase p (.waitFree (operandPoint c) 0) := by
  unfold takeRetire
  dsimp only
  rw [h]
  exact if_neg hf

theorem takeReadNow_of_refusal (h : s.refusal p (operandPoint c) false = some code) :
    takeReadNow p c s = s.completeZero p code := by
  unfold takeReadNow
  dsimp only
  rw [h]

theorem takeReadNow_of_idle (h : s.refusal p (operandPoint c) false = none)
    (hf : (s.point (operandPoint c)).inFlight = .none) :
    takeReadNow p c s = s.requestAccess p (operandPoint c) false := by
  unfold takeReadNow
  dsimp only
  rw [h]
  exact if_pos hf

theorem takeReadNow_of_flight (h : s.refusal p (operandPoint c) false = none)
    (hf : (s.point (operandPoint c)).inFlight ≠ .none) :
    takeReadNow p c s = s.enterPhase p .waitPoint := by
  unfold takeReadNow
  dsimp only
  rw [h]
  exact if_neg hf

/-- SHADOW as a WRITE leaves it (R44). -/
def writtenShadow (s : State) (c : Command) : Long :=
  mergeShadow (s.point (operandPoint c)).shadow (longOf (paramWord c 0) (paramWord c 1))
    (longOf (paramWord c 2) (paramWord c 3))

theorem writeProtected_iff : s.writeProtected p n = true ↔ (s.region (s.point n).region).readOnly = true ∨
    (p = .maint ∧ (s.region (s.point n).region).primaryOnly = true) := by
  simp [writeProtected]

theorem heldAgainst_iff : s.heldAgainst p n = true ↔ (s.point n).holder = some (otherPort p) := by
  simp [heldAgainst]

theorem takeWrite_of_not_defined (h : ¬ (s.point (operandPoint c)).state.isDefined = true) :
    takeWrite p c s = s.completeZero p .notDefined := by
  simp [takeWrite, h]

theorem takeWrite_of_kind (h : (s.point (operandPoint c)).state.isDefined = true)
    (hk : (s.point (operandPoint c)).kind ≠ .output) : takeWrite p c s = s.completeZero p .badPoint := by
  simp [takeWrite, h, hk]

theorem takeWrite_of_held (h : (s.point (operandPoint c)).state.isDefined = true)
    (hk : (s.point (operandPoint c)).kind = .output) (hh : s.heldAgainst p (operandPoint c) = true) :
    takeWrite p c s = s.completeZero p .held := by
  simp [takeWrite, h, hk, hh]

theorem takeWrite_of_protected (h : (s.point (operandPoint c)).state.isDefined = true)
    (hk : (s.point (operandPoint c)).kind = .output) (hh : s.heldAgainst p (operandPoint c) ≠ true)
    (hp : s.writeProtected p (operandPoint c) = true) : takeWrite p c s = s.completeZero p .isProtected := by
  simp [takeWrite, h, hk, hh, hp]

theorem takeWrite_of_ok (h : (s.point (operandPoint c)).state.isDefined = true)
    (hk : (s.point (operandPoint c)).kind = .output) (hh : s.heldAgainst p (operandPoint c) ≠ true)
    (hp : s.writeProtected p (operandPoint c) ≠ true) : takeWrite p c s =
      (s.setPoint (operandPoint c) { s.point (operandPoint c) with shadow := s.writtenShadow c }).awaitWrite p
        (operandPoint c) := by
  simp [takeWrite, h, hk, hh, hp, writtenShadow]

end State

/-- Settles O22: the branches of each command that only complete it. -/
theorem refusedCommandsChangeNothing : Obligations.RefusedCommandsChangeNothing := by
  intro p c code s
  refine ⟨fun h => ⟨fun hf => h.refusedWith rfl (State.takeDefine_of_not_free hf),
      fun hf he => h.refusedWith rfl (State.takeDefine_of_error hf he)⟩,
    fun h => ⟨fun hu => h.refusedWith rfl (State.takeModify_of_refusal (State.refusal_eq_notDefined (by simpa using hu))),
      fun hu hh => h.refusedWith rfl (State.takeModify_of_refusal (State.refusal_eq_held hu hh)),
      fun hu hh he => h.refusedWith rfl (State.takeModify_of_error (State.refusal_eq_none hu fun _ => hh) he)⟩,
    fun h => ⟨fun hu => h.refusedWith rfl (State.takeRetire_of_refusal (State.refusal_eq_notDefined (by simpa using hu))),
      fun hu hh => h.refusedWith rfl (State.takeRetire_of_refusal (State.refusal_eq_held hu hh))⟩,
    fun h hu => h.refusedWith rfl (State.takeReadNow_of_refusal (State.refusal_eq_notDefined (by simpa using hu))),
    fun h => ⟨fun hu => h.refusedWith rfl (State.takeWrite_of_not_defined hu),
      fun hu hk => h.refusedWith rfl (State.takeWrite_of_kind hu hk),
      fun hu hk hh => h.refusedWith rfl (State.takeWrite_of_held hu hk (State.heldAgainst_iff.mpr hh)),
      fun hu hk hh hp => h.refusedWith rfl (State.takeWrite_of_protected hu hk (mt State.heldAgainst_iff.mp hh)
        (State.writeProtected_iff.mpr hp))⟩⟩

/-- Settles O39: the row of the timeout, before and after its count. -/
theorem beatTimeoutEndsTheAccess : Obligations.BeatTimeoutEndsTheAccess := by
  intro g a s hp hs
  refine ⟨fun ht => ?_, fun ht => ?_⟩
  · show execBeatTimeout s = _
    have hdue : a.stage ≠ .timed ∧ a.cap.timeout.toNat * Config.ticksPerTimeoutUnit ≤ a.ticks := ⟨hs, ht⟩
    unfold execBeatTimeout
    rw [hp]
    dsimp only
    rw [if_pos hdue]
    rw [State.reportAccess, completionOf_of_ne a (by decide)]
    simp only [AccessKind.isWrite_iff]
    rfl
  · exact State.exec_beatTimeout_of_not_due fun g' a' hp' => by
      obtain ⟨rfl, rfl⟩ := BusPhase.running.inj (hp.symm.trans hp')
      exact .inr ht

/-- Settles O5: by the values of `State.reset`. -/
theorem coldResetSetsEveryBlock : Obligations.ColdResetSetsEveryBlock := by
  intro madrHigh scsLow s
  refine ⟨s.coldReset madrHigh scsLow, rfl, State.point_reset, State.chain_reset, rfl, rfl, fun p => ?_, rfl, rfl,
    fun h => by rw [h]; rfl, fun h => by rw [h]; exact ⟨rfl, rfl⟩, State.classState_reset, fun r => ?_, rfl, rfl, rfl, rfl,
    fun r => ?_, fun r => ?_, rfl, rfl, rfl, fun l => ?_, rfl, State.noticeSet_reset, rfl, rfl, rfl, rfl, rfl, rfl, rfl,
    rfl, rfl, rfl, rfl⟩
  · cases p <;> exact ⟨rfl, rfl, rfl, rfl, rfl, rfl, rfl, rfl, rfl, rfl, rfl⟩
  · simp [State.pendingFlag, State.coldReset, State.reset, Scan.reset]
  · simp [State.region, State.coldReset, State.reset, Bus.reset, Region.reset]
  · rcases r with _ | (_ | _) <;> rfl
  · simp [State.line, State.coldReset]

end Sys2Proof.Machine

end

/-! ### Requests, and the commands that read, write and configure -/

section

namespace Sys2Proof.Machine

namespace State

variable {s t u : State} {p : Port} {c : Command} {n : PointNo} {r : Requester} {q : Request}

/-! #### Grants (R122, R123) -/

theorem mem_rotationAfter (l r : Requester) : r ∈ rotationAfter l := by
  rcases l with _ | (_ | _) <;> rcases r with _ | (_ | _) <;> decide

theorem nodup_rotationAfter (l : Requester) : (rotationAfter l).Nodup := by
  rcases l with _ | (_ | _) <;> decide

theorem grantNext_of_first {before after : List Requester} (hp : s.bus.phase = .idle)
    (hr : rotationAfter s.bus.lastGranted = before ++ r :: after) (hb : ∀ x ∈ before, s.entry x = none)
    (hq : s.entry r = some q) : s.grantNext = s.grantTo r q := by
  have hfind : (rotationAfter s.bus.lastGranted).find? (fun x => (s.entry x).isSome) = some r := by
    rw [List.find?_eq_some_iff_append]
    exact ⟨by simp [hq], before, after, hr, fun x hx => by simp [hb x hx]⟩
  unfold grantNext
  rw [hp]
  dsimp only
  rw [hfind]
  dsimp only
  rw [hq]

theorem grantNext_of_empty (h : ∀ r, s.entry r = none) : s.grantNext = s := by
  have hfind : (rotationAfter s.bus.lastGranted).find? (fun x => (s.entry x).isSome) = none := by
    simp [List.find?_eq_none, h]
  unfold grantNext
  split
  · rw [hfind]
  all_goals rfl

theorem entry_grantTo (x : Requester) : (s.grantTo r q).entry x = if x = r then none else s.entry x := by
  rcases r with _ | (_ | _) <;> rcases x with _ | (_ | _) <;> rfl

theorem grantTo_frame (s : State) (r : Requester) (q : Request) : s.grantTo r q = { s with bus := { s.bus with
    phase := .granted ⟨q.point, r, q.forWrite, true⟩, lastGranted := r, entries := (s.grantTo r q).bus.entries } } := by
  rcases r with _ | (_ | _) <;> rfl

theorem entry_setPhase (s : State) (ph : BusPhase) (x : Requester) : (s.setPhase ph).entry x = s.entry x := by
  rcases x with _ | (_ | _) <;> rfl

theorem bus_setEntry_grantTo (h : s.entry r = none) : ((s.setEntry r (some q)).grantTo r q).bus =
    { s.bus with lastGranted := r, phase := .granted ⟨q.point, r, q.forWrite, true⟩ } := by
  have hemptied : ((s.setEntry r (some q)).grantTo r q).bus =
      { (s.setEntry r none).bus with lastGranted := r, phase := .granted ⟨q.point, r, q.forWrite, true⟩ } := by
    rcases r with _ | (_ | _) <;> rfl
  rw [hemptied, ← h, setEntry_entry_self]

/-- Placing a request, whatever the engine is doing (R122). -/
theorem placed_placeRequest (he : s.EngineAgrees) (r : Requester) (n : PointNo) (f : Bool) :
    s.Placed (s.placeRequest r n f) r n f := by
  refine ⟨fun hp => ?_, fun hp => ?_⟩
  · obtain ⟨before, after, hr⟩ := List.append_of_mem (mem_rotationAfter s.bus.lastGranted r)
    have hnd := nodup_rotationAfter s.bus.lastGranted
    rw [hr, List.nodup_append] at hnd
    obtain ⟨-, -, hne⟩ := hnd
    have hlast : (s.setEntry r (some ⟨n, f⟩)).bus.lastGranted = s.bus.lastGranted := by
      rcases r with _ | (_ | _) <;> rfl
    have hgrant : s.placeRequest r n f = (s.setEntry r (some ⟨n, f⟩)).grantTo r ⟨n, f⟩ := by
      refine grantNext_of_first (by rw [phase_setEntry, hp]) (hlast ▸ hr) (fun x hx => ?_) (entry_setEntry_self _ _ _)
      rw [entry_setEntry_ne _ (hne x hx r (by simp)).symm]
      exact he hp x
    rw [hgrant, bus_setEntry_grantTo (he hp r)]
  · have hbusy : s.placeRequest r n f = s.setEntry r (some ⟨n, f⟩) :=
      grantNext_busy _ (by rw [phase_setEntry]; exact hp)
    rw [hbusy]
    refine ⟨entry_setEntry_self _ _ _, fun x hx => entry_setEntry_ne _ hx.symm _, ?_⟩
    rcases r with _ | (_ | _) <;> rfl

theorem Placed.congr {f : Bool} (h : u.Placed t r n f) (hb : u.bus = s.bus) : s.Placed t r n f := by
  have hentry : ∀ x, u.entry x = s.entry x := fun x => by
    unfold entry
    rw [hb]
  simpa only [Placed, hb, hentry] using h

/-! #### Slots (R31, R32) -/

theorem completed_complete (hl : u.lastTaken = .slot p) (hp : u.port p = s.port p)
    (ho : u.port (otherPort p) = s.port (otherPort p)) (code : ResultCode) (a : Vector Word 64) :
    s.Completed (u.complete p code a) p code a := by
  refine ⟨by simp [hl], ?_, ?_⟩
  · rw [complete, port_setSlot_self, hp]
  · rw [complete, setSlot, port_setPort_other _ (by cases p <;> decide), ho]

theorem busyWith_congr (hp : u.port p = s.port p) : u.busyWith p = s.busyWith p := by
  rw [busyWith, busyWith, slot, slot, hp]

theorem enterPhase_of_busy (hb : s.busyWith p = some c) (ph : CmdPhase) :
    s.enterPhase p ph = s.setSlot p { s.slot p with state := .busy { c with phase := ph } } := by
  rw [enterPhase, hb]

theorem goesOn_enterPhase (hb : s.busyWith p = some c) (hl : u.lastTaken = .slot p) (hp : u.port p = s.port p)
    (ho : u.port (otherPort p) = s.port (otherPort p)) (ph : CmdPhase) : s.GoesOn (u.enterPhase p ph) p c ph := by
  have hbu : u.busyWith p = some c := (busyWith_congr hp).trans hb
  rw [enterPhase_of_busy hbu]
  refine ⟨by simp [hl], ?_, ?_⟩
  · rw [port_setSlot_self, slot, hp]
    rfl
  · rw [setSlot, port_setPort_other _ (by cases p <;> decide), ho]

theorem GoesOn.congr {ph : CmdPhase} (h : s.GoesOn u p c ph) (hl : t.lastTaken = u.lastTaken)
    (hp : ∀ o, t.port o = u.port o) : s.GoesOn t p c ph := by
  obtain ⟨hlast, hport, hother⟩ := h
  exact ⟨hl.trans hlast, (hp p).trans hport, (hp _).trans hother⟩

theorem port_placeRequest (s : State) (r : Requester) (n : PointNo) (f : Bool) (o : Port) :
    (s.placeRequest r n f).port o = s.port o := by
  rw [s.busOnly_placeRequest r n f]
  rfl

theorem goesOn_requestAccess (hb : s.busyWith p = some c) (hl : u.lastTaken = .slot p) (hp : u.port p = s.port p)
    (ho : u.port (otherPort p) = s.port (otherPort p)) (n : PointNo) (f : Bool) :
    s.GoesOn (u.requestAccess p n f) p c .waitGrant :=
  (goesOn_enterPhase hb hl hp ho .waitGrant).congr (by simp [requestAccess]) (port_placeRequest _ _ n f)

theorem placed_requestAccess (he : s.EngineAgrees) (hb : u.bus = s.bus) (p : Port) (n : PointNo) (f : Bool) :
    s.Placed (u.requestAccess p n f) (.slot p) n f := by
  have hbus : (u.enterPhase p .waitGrant).bus = s.bus := by simp [hb]
  refine (placed_placeRequest ?_ (.slot p) n f).congr hbus
  intro hi x
  unfold entry
  rw [hbus]
  exact he (hbus ▸ hi) x

theorem enterPhase_slots (s : State) (p : Port) (ph : CmdPhase) :
    ∃ x y, s.enterPhase p ph = { s with primary := x, maint := y } := by
  obtain ⟨x, hx⟩ := s.enterPhase_eq p ph
  rw [hx]
  cases p <;> exact ⟨_, _, rfl⟩

theorem complete_slots (s : State) (p : Port) (code : ResultCode) (a : Vector Word 64) :
    ∃ x y, s.complete p code a = { s with primary := x, maint := y } := by
  cases p <;> exact ⟨_, _, rfl⟩

theorem requestAccess_slots (s : State) (p : Port) (n : PointNo) (f : Bool) :
    ∃ x y b, s.requestAccess p n f = { s with primary := x, maint := y, bus := b } := by
  obtain ⟨x, y, hx⟩ := s.enterPhase_slots p .waitGrant
  refine ⟨x, y, (s.requestAccess p n f).bus, ?_⟩
  have hbus := (s.enterPhase p .waitGrant).busOnly_placeRequest (.slot p) n f
  unfold BusOnly at hbus
  rw [requestAccess, hbus, hx]

end State

/-- Settles O33: `grantNext` on the first filled entry, and on an empty table. -/
theorem engineGrantsInRotation : Obligations.EngineGrantsInRotation := by
  refine ⟨fun s r q before after hr hb hq => ?_, fun s h => ?_⟩
  · have hgrant : s.busIdle = (s.setPhase .idle).grantTo r q :=
      State.grantNext_of_first rfl hr (fun x hx => (s.entry_setPhase .idle x).trans (hb x hx))
        ((s.entry_setPhase .idle r).trans hq)
    rw [hgrant]
    refine ⟨by rw [State.grantTo_frame], by rw [State.grantTo_frame], by rw [State.entry_grantTo, if_pos rfl],
      fun x hx => ?_, State.grantTo_frame _ _ _⟩
    rw [State.entry_grantTo, if_neg hx, State.entry_setPhase]
  · rw [State.busIdle, State.grantNext_of_empty fun x => (s.entry_setPhase .idle x).trans (h x)]
    rfl

/-- Settles O24: the request, or the wait for the access in flight. -/
theorem readNowAsksForAnAccess : Obligations.ReadNowAsksForAnAccess := by
  intro p c s h he n hd
  have hexec := h.exec_row (i := .readNow p) rfl
  have hok : ({ s with lastTaken := .slot p } : State).refusal p n false = none :=
    State.refusal_eq_none hd fun e => by simp at e
  obtain ⟨-, hbusy, -⟩ := h
  refine ⟨fun hf => ?idle, fun hf => ?flight⟩
  case idle =>
    rw [show State.commandAct .readNow p c _ = _ from State.takeReadNow_of_idle hok hf] at hexec
    refine ⟨_, hexec, State.goesOn_requestAccess (u := { s with lastTaken := .slot p }) hbusy rfl rfl rfl n false,
      State.placed_requestAccess (u := { s with lastTaken := .slot p }) he rfl p n false, ?_⟩
    obtain ⟨x, y, b, hx⟩ := ({ s with lastTaken := .slot p } : State).requestAccess_slots p n false
    rw [hx]
  case flight =>
    rw [show State.commandAct .readNow p c _ = _ from State.takeReadNow_of_flight hok hf] at hexec
    refine ⟨_, hexec, State.goesOn_enterPhase (u := { s with lastTaken := .slot p }) hbusy rfl rfl rfl .waitPoint, ?_⟩
    obtain ⟨x, y, hx⟩ := ({ s with lastTaken := .slot p } : State).enterPhase_slots p .waitPoint
    rw [hx]
    rfl

/-! ### WRITE (R44 to R46) -/

theorem getLsbD_mergeShadow (shadow value mask : Long) (i : Nat) : (State.mergeShadow shadow value mask).getLsbD i =
    if mask.getLsbD i then value.getLsbD i else shadow.getLsbD i := by
  by_cases hi : i < 32
  · simp only [State.mergeShadow, BitVec.getLsbD_or, BitVec.getLsbD_and, BitVec.getLsbD_not, hi, decide_true]
    cases mask.getLsbD i <;> simp
  · have hge : 32 ≤ i := by omega
    simp [BitVec.getLsbD_of_ge _ _ hge]

namespace State

variable {s : State} {p : Port} {n : PointNo}

theorem awaitWrite_of_idle (h : (s.point n).inFlight = .none) : s.awaitWrite p n = s.requestAccess p n true := if_pos h

theorem awaitWrite_of_owed (h : (s.point n).inFlight ≠ .none) (hw : (s.point n).writeAgain = true) :
    s.awaitWrite p n = s.enterPhase p .waitWrite := by
  unfold awaitWrite
  dsimp only
  rw [if_neg h, if_pos hw]

theorem awaitWrite_of_flight (h : (s.point n).inFlight ≠ .none) (hw : (s.point n).writeAgain = false) :
    s.awaitWrite p n = (s.setPoint n { s.point n with writeAgain := true }).enterPhase p .waitPoint := by
  unfold awaitWrite
  dsimp only
  rw [if_neg h, if_neg (by simp [hw])]

/-- The waiting half of a WRITE: its command goes on, and the point owes a write while an access is in flight (R45, R46). -/
theorem awaitWrite_effect {u : State} {c : Command} (he : s.EngineAgrees) (hbusy : s.busyWith p = some c)
    (hl : u.lastTaken = .slot p) (hbus : u.bus = s.bus) (hport : ∀ o, u.port o = s.port o) :
    ((u.awaitWrite p n).point n = { u.point n with
      writeAgain := if (u.point n).inFlight = .none then (u.point n).writeAgain else true }) ∧
    (∀ m, m ≠ n → (u.awaitWrite p n).point m = u.point m) ∧
    ((u.point n).inFlight = .none → s.GoesOn (u.awaitWrite p n) p c .waitGrant ∧
      s.Placed (u.awaitWrite p n) (.slot p) n true) ∧
    ((u.point n).inFlight ≠ .none →
      s.GoesOn (u.awaitWrite p n) p c (if (u.point n).writeAgain then .waitWrite else .waitPoint) ∧
      (u.awaitWrite p n).bus = s.bus) ∧
    ∃ ps x y b, u.awaitWrite p n = { u with points := ps, primary := x, maint := y, bus := b } := by
  by_cases hf : (u.point n).inFlight = .none
  · obtain ⟨x, y, b, hx⟩ := u.requestAccess_slots p n true
    rw [awaitWrite_of_idle hf]
    refine ⟨by rw [if_pos hf]; simp, by simp, fun _ => ⟨goesOn_requestAccess hbusy hl (hport p) (hport _) n true,
      placed_requestAccess he hbus p n true⟩, fun hne => absurd hf hne, u.points, x, y, b, hx⟩
  · cases hw : (u.point n).writeAgain with
    | true =>
      obtain ⟨x, y, hx⟩ := u.enterPhase_slots p .waitWrite
      rw [awaitWrite_of_owed hf hw]
      refine ⟨by rw [if_neg hf, ← hw]; simp, by simp, fun h => absurd h hf,
        fun _ => ⟨goesOn_enterPhase hbusy hl (hport p) (hport _) .waitWrite, by simp [hbus]⟩, u.points, x, y, u.bus, hx⟩
    | false =>
      obtain ⟨x, y, hx⟩ := (u.setPoint n { u.point n with writeAgain := true }).enterPhase_slots p .waitPoint
      rw [awaitWrite_of_flight hf hw]
      refine ⟨by rw [if_neg hf]; simp, fun m hm => by simp [hm.symm], fun h => absurd h hf,
        fun _ => ⟨goesOn_enterPhase (u := u.setPoint n { u.point n with writeAgain := true }) hbusy hl (hport p)
          (hport _) .waitPoint, by simp [hbus]⟩, _, x, y, u.bus, hx⟩

end State

/-- Settles O25: SHADOW takes its bits, and `awaitWrite` does the rest. -/
theorem writeChangesShadowAndWaits : Obligations.WriteChangesShadowAndWaits := by
  intro p c s h he n r g hd hk hh hro hpo
  have hprotected : ({ s with lastTaken := .slot p } : State).writeProtected p n ≠ true := by
    rw [ne_eq, State.writeProtected_iff]
    rintro (hr | ⟨hm, hp⟩)
    · exact absurd (hro.symm.trans hr) (by decide)
    · exact absurd ((hpo hm).symm.trans hp) (by decide)
  have hexec : exec (.write p) s = .next ((({ s with lastTaken := .slot p } : State).setPoint n
      { r with shadow := s.writtenShadow c }).awaitWrite p n) :=
    (h.exec_row rfl).trans (congrArg _ (State.takeWrite_of_ok (s := { s with lastTaken := .slot p }) hd hk
      (mt State.heldAgainst_iff.mp hh) hprotected))
  obtain ⟨-, hbusy, -⟩ := h
  obtain ⟨hpoint, hother, hidle, hflight, ps, x, y, b, hframe⟩ := State.awaitWrite_effect (n := n) (u :=
    ({ s with lastTaken := .slot p } : State).setPoint n { r with shadow := s.writtenShadow c }) he hbusy rfl rfl
    fun _ => rfl
  rw [State.point_setPoint_self] at hpoint hidle hflight
  refine ⟨_, hexec, fun i => ?_, ?_, fun m hm => ?_, hidle, hflight, ?_⟩
  · rw [hpoint]
    exact getLsbD_mergeShadow _ _ _ i
  · rw [hpoint]
  · rw [hother m hm, State.point_setPoint_ne _ hm.symm]
    rfl
  · rw [hframe]
    rfl

end Sys2Proof.Machine

end

/-! ### SET_REGION, SET_CLASS and the reports, and CMD writes -/

section

namespace Sys2Proof.Machine

theorem Region.fieldsOk_iff (g : Region) : g.fieldsOk = true ↔ g.Valid := by
  unfold Region.fieldsOk Region.Valid sizeBytes
  cases hp : g.pacing <;> simp [and_assoc]

namespace State

variable {s t u : State} {p : Port} {c : Command} {num : Nat} {n : RegionNo} {g : Region}

/-! #### Regions (R51, R52) -/

theorem storeRegion_of_bad_number (h : 8 ≤ num) : s.storeRegion p num g = .error .badField := by
  have hno : ¬ num < 8 := by omega
  simp [storeRegion, hno]

theorem storeRegion_of_protected (hp : p = .maint) (h : (s.region n).primaryOnly = true) :
    s.storeRegion p n.val g = .error .isProtected := by
  have hlt : n.val < 8 := n.isLt
  unfold storeRegion
  rw [dif_pos hlt]
  exact if_pos ⟨hp, h⟩

theorem storeRegion_of_invalid (hp : ¬ (p = .maint ∧ (s.region n).primaryOnly = true)) (h : ¬ g.Valid) :
    s.storeRegion p n.val g = .error .badField := by
  have hlt : n.val < 8 := n.isLt
  unfold storeRegion
  rw [dif_pos hlt]
  exact (if_neg hp).trans (if_neg (mt g.fieldsOk_iff.mp h))

theorem storeRegion_of_valid (hp : ¬ (p = .maint ∧ (s.region n).primaryOnly = true)) (h : g.Valid) :
    s.storeRegion p n.val g = .ok (s.setRegion n g) := by
  have hlt : n.val < 8 := n.isLt
  unfold storeRegion
  rw [dif_pos hlt]
  exact (if_neg hp).trans (if_pos (g.fieldsOk_iff.mpr h))

theorem reportOf_region (s : State) (n : RegionNo) : s.reportOf n.val = resultArea (regionWord n (s.region n)) := by
  have hlt : n.val < 8 := n.isLt
  unfold reportOf
  rw [dif_pos hlt]
  rfl

theorem takeSetRegion_of_error {code : ResultCode}
    (h : s.storeRegion p c.operand.toNat (Region.ofWords (paramWord c)) = .error code) :
    takeSetRegion p c s = s.completeZero p code := by
  rw [takeSetRegion, h]

theorem takeSetRegion_of_ok (h : s.storeRegion p c.operand.toNat (Region.ofWords (paramWord c)) = .ok u) :
    takeSetRegion p c s = u.complete p .ok (u.reportOf c.operand.toNat) := by
  rw [takeSetRegion, h]

/-! #### Classes (R53, R54) -/

theorem classOfCode_of_ge (h : 5 ≤ num) : classOfCode num = none := by
  unfold classOfCode
  split
  · omega
  · omega
  · omega
  · omega
  · omega
  · rfl

theorem classReport_congr (hc : ∀ k, t.chain k = s.chain k) (hk : ∀ k, t.classState k = s.classState k) (k : ClassSel) :
    t.classReport k = s.classReport k := by
  cases k <;> simp only [classReport, hc, hk]

theorem takeGetClass_of_none (h : classOfCode c.operand.toNat = none) : takeGetClass p c s = s.completeZero p .badField := by
  rw [takeGetClass, h]

theorem takeGetClass_of_some {k : ClassSel} (h : classOfCode c.operand.toNat = some k) :
    takeGetClass p c s = s.complete p .ok (s.classReport k) := by
  rw [takeGetClass, h]

/-- A report touches nothing but the slot (R52, R54). -/
theorem completed_completeOnly (s : State) (p : Port) (code : ResultCode) (a : Vector Word 64) :
    s.Completed (({ s with lastTaken := .slot p } : State).complete p code a) p code a ∧
    s.SlotsOnly (({ s with lastTaken := .slot p } : State).complete p code a) :=
  ⟨completed_complete (u := { s with lastTaken := .slot p }) rfl (by cases p <;> rfl) (by cases p <;> rfl) code a,
    by cases p <;> rfl⟩

theorem completed_classReport (hl : u.lastTaken = .slot p) (hp : u.port p = s.port p)
    (ho : u.port (otherPort p) = s.port (otherPort p)) (k : ClassSel) :
    s.Completed (u.complete p .ok (u.classReport k)) p .ok ((u.complete p .ok (u.classReport k)).classReport k) := by
  have hreport : (u.complete p .ok (u.classReport k)).classReport k = u.classReport k :=
    classReport_congr (by simp) (by simp) k
  rw [hreport]
  exact completed_complete hl hp ho .ok _

/-! #### CMD writes (R28, R29) -/

theorem busyWith_eq_some_iff : s.busyWith p = some c ↔ (s.slot p).state = .busy c := by
  unfold busyWith
  cases (s.slot p).state <;> simp

theorem WritesTo.exec_cmdWrite {v : Via} (h : s.WritesTo v Reg.cmd) (w : Word) :
    exec (.cmdWrite v w) s = .next (writeCmd v.port w s) := by
  obtain ⟨htaken, hloading⟩ := h
  exact congrArg Host.Outcome.next (s.portWrite_taken v Reg.cmd _ htaken hloading)

theorem writeCmd_of_accepted {w : Word} (h : s.busyWith p = none) (hw : hiByte w ≠ dismissCode) :
    writeCmd p w s = s.setPort p { s.port p with slot := { s.slot p with
      state := .busy ⟨hiByte w, loByte w, (s.port p).params, .queued⟩ } } := by
  unfold writeCmd
  cases hs : (s.slot p).state with
  | busy c => exact absurd (h.symm.trans (busyWith_eq_some_iff.mpr hs)) (by simp)
  | idle => exact if_neg hw
  | done => exact if_neg hw

end State

/-- Settles O26: the outcomes of `storeRegion`, and the report. -/
theorem regionCommands : Obligations.RegionCommands := by
  intro p c s g
  refine ⟨fun h => ⟨fun hn => ?badNumber, fun n hn => ⟨fun hp hpo => ?isProtected, fun hp hv => ?invalid, fun hp hv => ?valid⟩⟩,
    fun h => ⟨fun hn => ?getBad, fun n hn => ?get⟩⟩
  case badNumber => exact h.refusedWith rfl (State.takeSetRegion_of_error (State.storeRegion_of_bad_number hn))
  case isProtected =>
    refine h.refusedWith rfl (State.takeSetRegion_of_error ?_)
    rw [← hn]
    exact State.storeRegion_of_protected hp hpo
  case invalid =>
    refine h.refusedWith rfl (State.takeSetRegion_of_error ?_)
    rw [← hn]
    exact State.storeRegion_of_invalid hp hv
  case valid =>
    have hstore : ({ s with lastTaken := .slot p } : State).storeRegion p c.operand.toNat g =
        .ok (({ s with lastTaken := .slot p } : State).setRegion n g) := by
      rw [← hn]
      exact State.storeRegion_of_valid hp hv
    have hreport : ((({ s with lastTaken := .slot p } : State).setRegion n g).reportOf c.operand.toNat) =
        State.resultArea (regionWord n g) := by
      rw [← hn, State.reportOf_region, State.region_setRegion_self]
    have hexec := (h.exec_row rfl).trans (congrArg _ (State.takeSetRegion_of_ok hstore))
    rw [hreport] at hexec
    refine ⟨_, hexec, State.completed_complete rfl rfl rfl .ok _, ?_, fun m hm => ?_, ?_⟩
    · simp
    · simp [hm.symm]
      rfl
    · obtain ⟨x, y, hx⟩ := (({ s with lastTaken := .slot p } : State).setRegion n g).complete_slots p .ok
        (State.resultArea (regionWord n g))
      rw [hx]
      rfl
  case getBad =>
    have hlt : ¬ c.operand.toNat < 8 := by omega
    exact h.refusedWith rfl (if_neg hlt)
  case get =>
    have hlt : c.operand.toNat < 8 := hn ▸ n.isLt
    have hexec := (h.exec_row (i := .getRegion p) rfl).trans (congrArg _ (if_pos hlt))
    rw [← hn, State.reportOf_region] at hexec
    exact ⟨_, hexec, s.completed_completeOnly p .ok _⟩

/-- Settles O27: the restart of the class, and the words of the report. -/
theorem classCommands : Obligations.ClassCommands := by
  intro p c s
  refine ⟨fun h => ⟨fun hn => ?badClass, fun k hk => ?set⟩, fun h => ⟨fun hn => ?getBad, fun k hk => ?get⟩, fun k => rfl, rfl,
    fun k => ?rest⟩
  case badClass =>
    have hlt : ¬ c.operand.toNat < 4 := by omega
    exact h.refusedWith rfl (dif_neg hlt)
  case set =>
    have hlt : c.operand.toNat < 4 := hk ▸ k.isLt
    have hk' : (⟨c.operand.toNat, hlt⟩ : ClassNo) = k := Fin.ext hk.symm
    have hexec := (h.exec_row (i := .setClass p) rfl).trans (congrArg _ (dif_pos hlt))
    simp only [hk'] at hexec
    refine ⟨_, hexec, ?_, ?_, fun m hm => ?_, ?_⟩
    · exact State.completed_classReport (s := s)
        (u := ({ s with lastTaken := .slot p } : State).restartClass k (paramWord c 0)) rfl rfl rfl (some k)
    · simp [State.restartClass]
      exact ⟨rfl, rfl, rfl⟩
    · simp [State.restartClass, hm.symm]
      rfl
    · obtain ⟨x, y, hx⟩ := (({ s with lastTaken := .slot p } : State).restartClass k (paramWord c 0)).complete_slots p .ok
        ((({ s with lastTaken := .slot p } : State).restartClass k (paramWord c 0)).classReport (some k))
      rw [hx]
      rfl
  case getBad =>
    refine h.refusedWith rfl ?_
    have hnone := State.classOfCode_of_ge hn
    exact State.takeGetClass_of_none hnone
  case get =>
    have hsome : classOfCode c.operand.toNat = some k := hk ▸ classOfCode_classCode k
    exact ⟨_, (h.exec_row (i := .getClass p) rfl).trans (congrArg _ (State.takeGetClass_of_some hsome)),
      s.completed_completeOnly p .ok _⟩
  case rest => cases k <;> rfl

/-- Settles O29: the cases of `writeCmd`, and the command that has no name. -/
theorem cmdWriteIsAcceptedOrRefused : Obligations.CmdWriteIsAcceptedOrRefused := by
  refine ⟨fun v w s h hidle hw => ?accepted, fun p c s h => h.refusedWith rfl rfl,
    fun v w operand c s h hbusy => ⟨?collides, ?dismissCollides⟩⟩
  case accepted =>
    refine ⟨_, h.exec_cmdWrite w, ?_⟩
    rw [State.writeCmd_of_accepted hidle hw]
    exact ⟨s.port_setPort_self _ _, s.portOnly_setPort _ _⟩
  case collides =>
    refine ⟨_, h.exec_cmdWrite w, ?_⟩
    rw [State.writeCmd_of_busy (State.busyWith_eq_some_iff.mp hbusy)]
    exact ⟨s.port_setPort_self _ _, s.portOnly_setPort _ _⟩
  case dismissCollides =>
    refine ⟨_, h.exec_dismiss operand, ?_⟩
    rw [State.writeCmd_of_busy (State.busyWith_eq_some_iff.mp hbusy)]
    exact ⟨s.port_setPort_self _ _, s.portOnly_setPort _ _⟩

end Sys2Proof.Machine

end

/-! ### Block words (R102, R139) -/

section

namespace Sys2Proof.Machine.State

variable {s : State} {r : Point} {segs : List SegNo} {i j : Nat}

theorem segWords_setBlockWord_of_notMem {g : SegNo} (h : g ∉ segs) (w : Word) :
    (s.setBlockWord segs i w).segWords[g.val] = s.segWords[g.val] := by
  unfold setBlockWord
  split
  next x hx =>
    have hne : x ≠ g := by
      rintro rfl
      exact h (List.mem_of_getElem? hx)
    simp [Fin.val_ne_of_ne hne]
  next => rfl

/-- A point's segments are distinct, so each word has a place of its own. -/
theorem blockWord_setBlockWord (hnd : r.segments.Nodup) (hi : i / 8 < r.segments.length) (w : Word) :
    (s.setBlockWord r.segments i w).blockWord r j = if i = j then w else s.blockWord r j := by
  have hget : r.segments[i / 8]? = some (r.segments[i / 8]) := List.getElem?_eq_getElem hi
  unfold setBlockWord blockWord
  rw [hget]
  dsimp only
  cases hj : r.segments[j / 8]? with
  | none =>
    have hij : i ≠ j := by
      rintro rfl
      simp [hget] at hj
    rw [if_neg hij]
  | some x =>
    obtain ⟨hlt, rfl⟩ := List.getElem?_eq_some_iff.mp hj
    dsimp only
    by_cases hq : i / 8 = j / 8
    · have hsame : r.segments[i / 8].val = r.segments[j / 8].val := by simp only [hq]
      by_cases hij : i = j
      · subst hij
        simp
      · have hmod : i % 8 ≠ j % 8 := by omega
        simp [hsame, hij, hmod]
    · have hne : r.segments[i / 8].val ≠ r.segments[j / 8].val := fun h =>
        hq ((hnd.getElem_inj_iff).mp (Fin.ext h))
      have hij : i ≠ j := fun h => hq (by rw [h])
      simp [hne, hij]

theorem segWords_writeBlockFrom_of_notMem {g : SegNo} (h : g ∉ segs) (ws : List Word) :
    (s.writeBlockFrom segs i ws).segWords[g.val] = s.segWords[g.val] := by
  induction ws generalizing s i with
  | nil => rfl
  | cons w ws ih =>
    rw [writeBlockFrom, ih]
    exact segWords_setBlockWord_of_notMem h w

theorem blockWord_writeBlockFrom (hnd : r.segments.Nodup) {ws : List Word} (hlen : i + ws.length ≤ 8 * r.segments.length) :
    (s.writeBlockFrom r.segments i ws).blockWord r j =
      if i ≤ j ∧ j < i + ws.length then ws.getD (j - i) 0 else s.blockWord r j := by
  induction ws generalizing s i with
  | nil =>
    simp [writeBlockFrom]
  | cons w ws ih =>
    rw [List.length_cons] at hlen ⊢
    rw [writeBlockFrom, ih (by omega), blockWord_setBlockWord hnd (by omega)]
    by_cases hij : i = j
    · subst hij
      simp
    · by_cases hin : i ≤ j ∧ j < i + (ws.length + 1)
      · have hsucc : j - i = (j - (i + 1)) + 1 := by omega
        rw [if_pos (by omega), if_pos hin, hsucc, List.getD_cons_succ]
      · rw [if_neg (by omega), if_neg hij, if_neg hin]

/-- What a commit leaves in the block, and in the segments of others (R102, R139). -/
theorem commitBlock_words (hnd : r.segments.Nodup) (hlen : r.blockLen ≤ 8 * r.segments.length) (ws : List Word) :
    (∀ i, i < r.blockLen → (s.commitBlock r ws).blockWord r i = ws.getD i 0) ∧
    ∀ g : SegNo, g ∉ r.segments → (s.commitBlock r ws).segWords[g.val] = s.segWords[g.val] := by
  refine ⟨fun i hi => ?_, fun g hg => segWords_writeBlockFrom_of_notMem hg _⟩
  unfold commitBlock
  rw [blockWord_writeBlockFrom hnd (by simpa using hlen), if_pos (by simpa using hi)]
  simp [hi]

/-- The words of a block are those of its segments. -/
theorem blockWord_congr {t : State} {q : Point} (hs : q.segments = r.segments) (hw : t.segWords = s.segWords) (i : Nat) :
    t.blockWord q i = s.blockWord r i := by
  unfold blockWord
  rw [hs, hw]

end Sys2Proof.Machine.State

end

/-! ### DEFINE and MODIFY of a point (R3, R8, R10, R15, R18, R105, R106) -/

section

namespace Sys2Proof.Machine.State

variable {s t u : State} {n m : PointNo} {c x : ClassSel} {d : Definition} {l : List PointNo} {k : Nat}

/-! #### Appending to a chain -/

theorem chain_appendTo_self (s : State) (c : ClassSel) (n : PointNo) : (s.appendTo c n).chain c =
    ⟨if (s.chain c).tail = none then some n else (s.chain c).head, some n, (s.chain c).length + 1⟩ := by
  cases ht : (s.chain c).tail with
  | none => simp [appendTo_of_tail_none ht]
  | some m => simp [appendTo_of_tail_some ht]

theorem appendTo_frame (s : State) (c : ClassSel) (n : PointNo) :
    ∃ ps cs, s.appendTo c n = { s with points := ps, chains := cs } := by
  cases ht : (s.chain c).tail with
  | none => exact ⟨_, _, appendTo_of_tail_none ht⟩
  | some m => exact ⟨_, _, appendTo_of_tail_some ht⟩

/-- An append leaves a chain alone that holds neither the point nor the tail of the other chain. -/
theorem ChainIs.appendTo_ne (h : s.ChainIs x l) (hx : x ≠ c) (hn : n ∉ l)
    (ht : ∀ m ∈ l, (s.chain c).tail ≠ some m) : (s.appendTo c n).ChainIs x l := by
  refine h.congr (chain_appendTo_ne hx) fun m hm => ?_
  have hnm : n ≠ m := fun e => hn (e ▸ hm)
  simp [next_appendTo, ht m hm, hnm]

/-- The records after an append: the old tail leads to the new member. -/
theorem point_appendTo_ne (h : m ≠ n) : (s.appendTo c n).point m =
    if (s.chain c).tail = some m then { s.point m with next := some n } else s.point m := by
  rw [onlyNextMoves_appendTo s c n m, next_appendTo, if_neg h.symm]
  split_ifs <;> rfl

theorem point_appendTo_self (h : (s.chain c).tail ≠ some n) :
    (s.appendTo c n).point n = { s.point n with next := none } := by
  rw [onlyNextMoves_appendTo s c n n, next_appendTo, if_neg h, if_pos rfl]

theorem Standing.tail_ne_of_free (h : s.Standing) (hn : (s.point n).state.isDefined = false) (c : ClassSel) :
    (s.chain c).tail ≠ some n := fun ht => by
  obtain ⟨hd, -⟩ := h.links.tail_mem ht
  simp [hn] at hd

/-! #### DEFINE -/

/-- What DEFINE of a FREE point does to the table (R8, R15). -/
theorem Standing.defineCore_effect (h : s.Standing) (hfree : (s.point n).state = .free) (d : Definition) :
    (s.defineCore n d).point n = definedRecord d (s.freeSegs.take (segmentsFor d.blockLen)) ∧
    (∀ m, m ≠ n → (s.defineCore n d).point m =
      if (s.chain d.cls).tail = some m then { s.point m with next := some n } else s.point m) ∧
    (s.defineCore n d).chain d.cls = ⟨if (s.chain d.cls).tail = none then some n else (s.chain d.cls).head, some n,
      (s.chain d.cls).length + 1⟩ ∧
    (∀ x, x ≠ d.cls → (s.defineCore n d).chain x = s.chain x) ∧
    (s.defineCore n d).freeSegs = s.freeSegs.drop (segmentsFor d.blockLen) ∧
    (∀ g : SegNo, (s.defineCore n d).segWords[g.val] =
      if g ∈ s.freeSegs.take (segmentsFor d.blockLen) then Vector.replicate 8 0 else s.segWords[g.val]) ∧
    ∃ ps cs fs ws, s.defineCore n d = { s with points := ps, chains := cs, freeSegs := fs, segWords := ws } := by
  have hn : s.point n = Point.free := (h.records n).free hfree
  have htail := h.tail_ne_of_free (n := n) (by rw [hfree]; rfl) d.cls
  rw [defineCore_of_causes_eq (by rw [hn]; rfl)]
  generalize hk : segmentsFor d.blockLen = k
  generalize hr : definedRecord d (s.freeSegs.take k) = r
  refine ⟨?point, fun m hm => ?others, ?chain, fun x hx => ?chains, by simp, fun g => ?words, ?frame⟩
  case point =>
    rw [point_appendTo_self (by simpa using htail), point_setPoint_self, ← hr]
    rfl
  case others => simp [point_appendTo_ne hm, hm.symm]
  case chain => simp [chain_appendTo_self]
  case chains => simp [chain_appendTo_ne hx]
  case words => simpa using s.segWords_takeSegments k g
  case frame =>
    obtain ⟨ps, cs, hframe⟩ := ((s.takeSegments k).setPoint n r).appendTo_frame d.cls n
    obtain ⟨ws, hws⟩ := s.takeSegments_eq k
    refine ⟨ps, cs, s.freeSegs.drop k, ws, ?_⟩
    rw [hframe, hws]
    rfl

/-- Where the words of a point's segments are zero, its block words are. -/
theorem blockWord_eq_zero {r : Point} (h : ∀ g ∈ r.segments, s.segWords[g.val] = Vector.replicate 8 0) (i : Nat) :
    s.blockWord r i = 0 := by
  unfold blockWord
  split
  next g hg => simp [h g (List.mem_of_getElem? hg)]
  next => rfl

end Sys2Proof.Machine.State

namespace Sys2Proof.Machine

/-- Settles O17: `defineCore` does the work, `completeSnapshot` the rest. -/
theorem defineTakesAFreePointToUnread : Obligations.DefineTakesAFreePointToUnread := by
  intro p c d s h hcons n hfree hd k
  have hstanding : ({ s with lastTaken := .slot p } : State).Standing := hcons.standing.same ⟨fun _ => rfl, fun _ => rfl, rfl,
    fun _ => rfl, rfl, rfl, fun _ => ⟨rfl, rfl⟩⟩
  have hexec := (h.exec_row (i := .define p) rfl).trans
    (congrArg _ (State.takeDefine_of_ok (s := { s with lastTaken := .slot p }) hfree hd))
  obtain ⟨hpoint, hothers, hchain, hchains, hsegs, hwords, ps, cs, fs, ws, hframe⟩ :=
    hstanding.defineCore_effect hfree d
  have hcore := State.coreFrame_defineCore { s with lastTaken := .slot p } n d
  obtain ⟨x, y, hslots⟩ := (({ s with lastTaken := .slot p } : State).defineCore n d).complete_slots p .ok
    ((({ s with lastTaken := .slot p } : State).defineCore n d).snapshot n)
  refine ⟨_, hexec, State.completed_completeSnapshot s _ p .ok n (by simp) (hcore.port p) (hcore.port _), ?_⟩
  unfold State.completeSnapshot
  rw [hslots]
  refine ⟨hpoint, hothers, hchain, hchains, hsegs, fun i _ => State.blockWord_eq_zero (fun g hg => ?_) i,
    fun g hg => (hwords g).trans (if_neg hg), ?_⟩
  · refine (hwords g).trans (if_pos ?_)
    have hsegments : g ∈ ((({ s with lastTaken := .slot p } : State).defineCore n d).point n).segments := hg
    rw [hpoint] at hsegments
    exact hsegments
  · rw [hframe]

end Sys2Proof.Machine

end

/-! ### MODIFY: the parts of `modifyCore` (R10, R18, R105, R106) -/

section

namespace Sys2Proof.Machine.State

variable {s t u s' t' : State} {n m : PointNo} {c x : ClassSel} {d : Definition} {l : List PointNo}

/-! #### What the chains depend on -/

/-- From `s` to `t` nothing the chains and passes look at has changed. -/
structure SameChains (s t : State) : Prop where
  chains : ∀ c, t.chain c = s.chain c
  nexts : ∀ m, (t.point m).next = (s.point m).next
  passes : ∀ k, t.classState k = s.classState k

theorem SameChains.trans (h : s.SameChains t) (h' : t.SameChains u) : s.SameChains u where
  chains c := (h'.chains c).trans (h.chains c)
  nexts m := (h'.nexts m).trans (h.nexts m)
  passes k := (h'.passes k).trans (h.passes k)

theorem SameChains.symm (h : s.SameChains t) : t.SameChains s where
  chains c := (h.chains c).symm
  nexts m := (h.nexts m).symm
  passes k := (h.passes k).symm

theorem ChainIs.same (h : s.ChainIs c l) (hs : s.SameChains t) : t.ChainIs c l :=
  h.congr (hs.chains c) fun m _ => hs.nexts m

theorem LeavesChain.congr (h : s.LeavesChain t n) (hs : s.SameChains s') (hc : (s'.point n).cls = (s.point n).cls)
    (ht : t.SameChains t') : s'.LeavesChain t' n := by
  obtain ⟨hchain, hpass⟩ := h
  refine ⟨fun l hl => ?_, fun k => ?_⟩
  · rw [hc] at hl ⊢
    exact (hchain l (hl.same hs.symm)).same ht
  · rw [ht.passes, hpass, hs.passes, hs.nexts, hc]

theorem sameChains_emptyCauses (s : State) (n : PointNo) : s.SameChains (s.emptyCauses n) where
  chains := by simp
  nexts m := by
    rw [point_emptyCauses]
    split_ifs <;> rfl
  passes := by simp

/-! #### Causes and notices -/

/-- The emptying of CAUSES takes the point out of its notice set, if it was in one (R149). -/
theorem NoticesAgree.leaves_emptyCauses (h : s.NoticesAgree) (n : PointNo) : s.LeavesNotices (s.emptyCauses n) n := by
  by_cases hc : (s.point n).causes = 0
  · rw [emptyCauses_of_causes_eq hc]
    intro v
    have hall : ∀ m ∈ s.noticeSet v, m ≠ n := by
      rintro m hm rfl
      exact ((h.2 m v).mp hm).1 hc
    simpa using (List.filter_eq_self.mpr (by simpa using hall)).symm
  · exact h.leavesNotices_emptyCauses hc

theorem Standing.emptyCauses (h : s.Standing) (n : PointNo) : (s.emptyCauses n).Standing :=
  (StandingAs.emptyCauses h n).mono fun m x => by
    rw [InUse, InUse, point_emptyCauses]
    split_ifs <;> rfl

/-! #### The move to another chain (R18) -/

/-- A move to another chain leaves the old one, joins the new one at its tail, and leaves the rest. -/
theorem Standing.moveChain_effect (h : s.Standing) (hn : (s.point n).state.isDefined = true) (hc : c ≠ (s.point n).cls) :
    s.LeavesChain (s.moveChain n c) n ∧ (∀ l, s.ChainIs c l → (s.moveChain n c).ChainIs c (l ++ [n])) ∧
    (∀ x l, x ≠ (s.point n).cls → x ≠ c → s.ChainIs x l → (s.moveChain n c).ChainIs x l) ∧
    ((s.moveChain n c).point n).next = none := by
  rw [moveChain_of_ne hc]
  obtain ⟨⟨hleft, hpass⟩, hkept, -, hpoint⟩ := h.chainsAgree.unlinkFrom_effect hn
  have htail : ((s.unlinkFrom (s.point n).cls n).chain c).tail = (s.chain c).tail := by rw [chain_unlinkFrom_ne hc]
  have hout : ∀ x l, x ≠ (s.point n).cls → s.ChainIs x l → n ∉ l := fun x l hx hl hnl =>
    hx ((h.chainsAgree.mem_iff hl).mp hnl).2.symm
  have hnotTail : ∀ x l, x ≠ c → s.ChainIs x l → ∀ m ∈ l, (s.chain c).tail ≠ some m := fun x l hx hl m hm ht => by
    obtain ⟨-, hcm⟩ := (h.chainsAgree.mem_iff hl).mp hm
    obtain ⟨-, hcm'⟩ := h.links.tail_mem ht
    exact hx (hcm.symm.trans hcm')
  refine ⟨⟨fun l hl => ?_, fun k => ?_⟩, fun l hl => ?_, fun x l hx hxc hl => ?_, ?_⟩
  · refine (hleft l hl).appendTo_ne hc.symm (by simp) fun m hm => ?_
    rw [htail]
    exact hnotTail _ l hc.symm hl m (List.mem_of_mem_filter hm)
  · have hclass : ((s.unlinkFrom (s.point n).cls n).appendTo c n).classState k =
        (s.unlinkFrom (s.point n).cls n).classState k := by simp
    exact hclass.trans (hpass k)
  · exact (hkept c l hc hl).appendTo_self (hout c l hc hl)
  · refine (hkept x l hx hl).appendTo_ne hxc (hout x l hx hl) fun m hm => ?_
    rw [htail]
    exact hnotTail x l hxc hl m hm
  · rw [point_appendTo_self]
    rw [htail]
    exact fun ht => hc (h.links.tail_mem ht).2.symm

theorem moveChain_keepsPool (s : State) (n : PointNo) (c : ClassSel) :
    (s.moveChain n c).freeSegs = s.freeSegs ∧ (s.moveChain n c).segWords = s.segWords ∧
    ∀ v, (s.moveChain n c).noticeSet v = s.noticeSet v := by
  by_cases hc : c = (s.point n).cls
  · rw [moveChain_of_eq hc]
    exact ⟨rfl, rfl, fun _ => rfl⟩
  · rw [moveChain_of_ne hc]
    simp

/-! #### The segments (R105, R106) -/

theorem redefine_grown (h : (s.point n).segments.length < segmentsFor d.blockLen) : s.redefine n d =
    (s.takeSegments (segmentsFor d.blockLen - (s.point n).segments.length)).setPoint n
      (modifiedRecord { s.point n with segments := s.resizedSegments n d.blockLen } d) := by
  rw [redefine, resizeSegments_grown h, setPoint_setPoint]

theorem redefine_shrunk (h : ¬ (s.point n).segments.length < segmentsFor d.blockLen) : s.redefine n d =
    (s.returnSegments ((s.point n).segments.drop (segmentsFor d.blockLen))).setPoint n
      (modifiedRecord { s.point n with segments := s.resizedSegments n d.blockLen } d) := by
  rw [redefine, resizeSegments_shrunk h, setPoint_setPoint]

theorem resizedSegments_congr (hf : t.freeSegs = s.freeSegs) (hs : (t.point n).segments = (s.point n).segments)
    (len : Nat) : t.resizedSegments n len = s.resizedSegments n len := by
  unfold resizedSegments
  rw [hf, hs]

/-- Segments that the point does not hold afterwards keep their words. -/
theorem segWords_redefine {g : SegNo} (hg : g ∉ s.resizedSegments n d.blockLen) :
    (s.redefine n d).segWords[g.val] = s.segWords[g.val] := by
  by_cases h : (s.point n).segments.length < segmentsFor d.blockLen
  · rw [redefine_grown h]
    rw [resizedSegments, if_pos h, List.mem_append, not_or] at hg
    exact (segWords_takeSegments s _ g).trans (if_neg hg.2)
  · rw [redefine_shrunk h]
    rfl

theorem sameChains_redefine (s : State) (n : PointNo) (d : Definition) : s.SameChains (s.redefine n d) where
  chains := (s.redefine_keeps n d).1
  nexts m := by
    rw [point_redefine]
    split_ifs with hm
    · obtain ⟨-, hnext, -⟩ := modifiedRecord_keeps { s.point m with segments := s.resizedSegments n d.blockLen } d
      exact hnext
    · rfl
  passes := (s.redefine_keeps n d).2.2.2

theorem sameChains_commitBlock (s : State) (r : Point) (ws : List Word) : s.SameChains (s.commitBlock r ws) := by
  constructor <;> simp

/-! #### MODIFY as a whole (R10) -/

/-- What `modifyCore` works on: the point moved, its causes emptied. -/
def movedFor (s : State) (n : PointNo) (c : ClassSel) : State := (s.emptyCauses n).moveChain n c

theorem sameChains_modifyCore (s : State) (n : PointNo) (d : Definition) :
    (s.movedFor n d.cls).SameChains (s.modifyCore n d) := by
  rw [modifyCore_parts]
  exact (sameChains_redefine _ n d).trans (sameChains_commitBlock _ _ _)

theorem freeSegs_movedFor (s : State) (n : PointNo) (c : ClassSel) : (s.movedFor n c).freeSegs = s.freeSegs := by
  rw [movedFor, (moveChain_keepsPool _ n c).1]
  simp

theorem segWords_movedFor (s : State) (n : PointNo) (c : ClassSel) : (s.movedFor n c).segWords = s.segWords := by
  rw [movedFor, (moveChain_keepsPool _ n c).2.1]
  simp

theorem segments_movedFor (s : State) (n : PointNo) (c : ClassSel) :
    ((s.movedFor n c).point n).segments = (s.point n).segments := by
  rw [movedFor, onlyNextMoves_moveChain (s.emptyCauses n) n c n, point_emptyCauses, if_pos rfl]

theorem resizedSegments_movedFor (s : State) (n : PointNo) (c : ClassSel) (len : Nat) :
    (s.movedFor n c).resizedSegments n len = s.resizedSegments n len :=
  resizedSegments_congr (s.freeSegs_movedFor n c) (s.segments_movedFor n c) len

theorem freeSegs_modifyCore (s : State) (n : PointNo) (d : Definition) :
    (s.modifyCore n d).freeSegs = ((s.movedFor n d.cls).redefine n d).freeSegs := by
  rw [modifyCore_parts]
  simp [movedFor]

theorem freeSegs_modifyCore_grown (h : (s.point n).segments.length < segmentsFor d.blockLen) :
    (s.modifyCore n d).freeSegs = s.freeSegs.drop (segmentsFor d.blockLen - (s.point n).segments.length) := by
  have hlen := s.segments_movedFor n d.cls
  rw [freeSegs_modifyCore, redefine_grown (by rw [hlen]; exact h), hlen]
  simp [freeSegs_movedFor]

theorem returned_modifyCore_shrunk (hp : s.freeSegs.Pairwise (· < ·))
    (h : segmentsFor d.blockLen ≤ (s.point n).segments.length) :
    s.Returned (s.modifyCore n d) ((s.point n).segments.drop (segmentsFor d.blockLen)) := by
  have hlen := s.segments_movedFor n d.cls
  have hfree := s.freeSegs_movedFor n d.cls
  unfold Returned
  rw [freeSegs_modifyCore, redefine_shrunk (by rw [hlen]; omega), hlen, ← hfree]
  exact returned_returnSegments (hfree ▸ hp) _

theorem noticeSet_modifyCore (s : State) (n : PointNo) (d : Definition) (v : Level) :
    (s.modifyCore n d).noticeSet v = (s.emptyCauses n).noticeSet v := by
  rw [modifyCore_parts, (sameStanding_commitBlock _ _ _).sets, (redefine_keeps _ n d).2.1,
    (moveChain_keepsPool _ n d.cls).2.2]

/-- The record of a point under its new definition, but for NEXT (R10). -/
theorem point_modifyCore_self (s : State) (n : PointNo) (d : Definition) : (s.modifyCore n d).point n =
    { modifiedRecord { s.point n with causes := 0, segments := s.resizedSegments n d.blockLen } d with
      next := ((s.movedFor n d.cls).point n).next } := by
  rw [point_modifyCore, if_pos rfl, (s.sameChains_modifyCore n d).nexts n, ← resizedSegments_movedFor s n d.cls]
  rfl

theorem othersKept_modifyCore (s : State) (n : PointNo) (d : Definition) : s.OthersKept (s.modifyCore n d) n :=
  fun m hm => by
    rw [point_modifyCore, if_neg hm.symm]

/-- The block words are zero, and the segments the point does not hold are as they were. -/
theorem Standing.modifyCore_words (h : s.Standing)
    (hspace : segmentsFor d.blockLen - (s.point n).segments.length ≤ s.freeSegs.length) :
    (∀ i, i < d.blockLen → (s.modifyCore n d).blockWord ((s.modifyCore n d).point n) i = 0) ∧
    ∀ g : SegNo, g ∉ ((s.modifyCore n d).point n).segments →
      (s.modifyCore n d).segWords[g.val] = s.segWords[g.val] := by
  obtain ⟨hnd, -⟩ := (h.records n).segments
  generalize hr : ((s.movedFor n d.cls).redefine n d).point n = r
  have hsegs : r.segments = s.resizedSegments n d.blockLen := by
    rw [← hr, point_redefine, if_pos rfl, resizedSegments_movedFor]
    exact (modifiedRecord_keeps _ d).1
  have hlen : r.blockLen = d.blockLen := by
    rw [← hr, point_redefine, if_pos rfl, modifiedRecord_eq]
    rfl
  have hlength : r.segments.length = segmentsFor d.blockLen := by
    rw [hsegs, length_resizedSegments hspace]
  have hsame : ((s.modifyCore n d).point n).segments = r.segments := by
    rw [point_modifyCore_self, hsegs]
    exact (modifiedRecord_keeps _ d).1
  have hcore : s.modifyCore n d = ((s.movedFor n d.cls).redefine n d).commitBlock r [] := by
    rw [modifyCore_parts, ← hr]
    rfl
  have hcover : r.blockLen ≤ 8 * r.segments.length := by
    rw [hlength, hlen, segmentsFor]
    omega
  obtain ⟨hwords, hothers⟩ := commitBlock_words (s := (s.movedFor n d.cls).redefine n d) (r := r)
    (hsegs ▸ h.pool.nodup_resizedSegments hnd d.blockLen) hcover []
  refine ⟨fun i hi => ?_, fun g hg => ?_⟩
  · rw [blockWord_congr (s := s.modifyCore n d) hsame rfl, hcore, hwords i (hlen ▸ hi)]
    rfl
  · rw [hsame] at hg
    have hmoved : g ∉ (s.movedFor n d.cls).resizedSegments n d.blockLen := by
      rw [resizedSegments_movedFor, ← hsegs]
      exact hg
    rw [hcore, hothers g hg, segWords_redefine hmoved, segWords_movedFor]

end Sys2Proof.Machine.State

end

/-! ### MODIFY (R10, R35) -/

section

namespace Sys2Proof.Machine

namespace State

variable {s : State} {n m : PointNo} {d : Definition}

/-- A MODIFY that keeps the CLASS keeps every place on the chains (R18). -/
theorem modifyCore_of_cls_eq (h : d.cls = (s.point n).cls) :
    (∀ m, ((s.modifyCore n d).point m).next = (s.point m).next) ∧ (s.modifyCore n d).chains = s.chains ∧
    (s.modifyCore n d).scan = s.scan := by
  have hcls : d.cls = ((s.emptyCauses n).point n).cls := by
    rw [point_emptyCauses, if_pos rfl]
    exact h
  have hmoved : s.movedFor n d.cls = s.emptyCauses n := moveChain_of_eq hcls
  refine ⟨fun m => ?_, ?_⟩
  · rw [(s.sameChains_modifyCore n d).nexts m, hmoved, (s.sameChains_emptyCauses n).nexts m]
  · rw [modifyCore_parts]
    change (((s.movedFor n d.cls).redefine n d).commitBlock _ []).chains = _ ∧
      (((s.movedFor n d.cls).redefine n d).commitBlock _ []).scan = _
    rw [hmoved]
    obtain ⟨k, -, hk⟩ | ⟨k, -, hk⟩ := (s.emptyCauses n).redefine_cases n d <;> rw [hk] <;> simp

/-- A MODIFY to another CLASS moves the point to the tail of its chain (R18). -/
theorem Standing.modifyCore_of_cls_ne (h : s.Standing) (hn : (s.point n).state.isDefined = true)
    (hc : d.cls ≠ (s.point n).cls) :
    s.LeavesChain (s.modifyCore n d) n ∧ (∀ l, s.ChainIs d.cls l → (s.modifyCore n d).ChainIs d.cls (l ++ [n])) ∧
    (∀ x l, x ≠ (s.point n).cls → x ≠ d.cls → s.ChainIs x l → (s.modifyCore n d).ChainIs x l) ∧
    ((s.modifyCore n d).point n).next = none := by
  have hpoint : (s.emptyCauses n).point n = { s.point n with causes := 0 } := by rw [point_emptyCauses, if_pos rfl]
  have hempty := s.sameChains_emptyCauses n
  have hcore := s.sameChains_modifyCore n d
  obtain ⟨hleft, hjoined, hkept, hnext⟩ := (h.emptyCauses n).moveChain_effect (n := n) (c := d.cls)
    (by rw [hpoint]; exact hn) (by rw [hpoint]; exact hc)
  refine ⟨hleft.congr hempty.symm (by rw [hpoint]) hcore, fun l hl => (hjoined l (hl.same hempty)).same hcore,
    fun x l hx hxc hl => (hkept x l (by rw [hpoint]; exact hx) hxc (hl.same hempty)).same hcore, ?_⟩
  rw [hcore.nexts]
  exact hnext

/-- Neither the rotation nor the slots matter to the chains. -/
theorem sameChains_lastTaken (s : State) (r : Requester) : s.SameChains { s with lastTaken := r } :=
  ⟨fun _ => rfl, fun _ => rfl, fun _ => rfl⟩

theorem sameChains_slots (s : State) (x y : PortState) : s.SameChains { s with primary := x, maint := y } :=
  ⟨fun _ => rfl, fun _ => rfl, fun _ => rfl⟩

end State

/-- Settles O18: `modifyCore` does the work, `completeSnapshot` the rest. -/
theorem modifyRedefinesThePoint : Obligations.ModifyRedefinesThePoint := by
  intro p c d s h hcons n r hdef hholder hd k
  have hstanding : ({ s with lastTaken := .slot p } : State).Standing := hcons.standing.same ⟨fun _ => rfl, fun _ => rfl, rfl,
    fun _ => rfl, rfl, rfl, fun _ => ⟨rfl, rfl⟩⟩
  obtain ⟨-, hspace, hkind⟩ := State.checkDefinition_ok hd
  have hkind : r.kind = d.kind := by simpa using hkind
  have hrefusal : ({ s with lastTaken := .slot p } : State).refusal p n true = none :=
    State.refusal_eq_none hdef fun _ => hholder
  have hexec := (h.exec_row (i := .modify p) rfl).trans
    (congrArg _ (State.takeModify_of_ok (s := { s with lastTaken := .slot p }) hrefusal hd))
  have hcore := State.coreFrame_modifyCore { s with lastTaken := .slot p } n d
  have hpoint := State.point_modifyCore_self { s with lastTaken := .slot p } n d
  have hothers := State.othersKept_modifyCore { s with lastTaken := .slot p } n d
  have hnotices : s.LeavesNotices (({ s with lastTaken := .slot p } : State).modifyCore n d) n := fun v =>
    (State.noticeSet_modifyCore _ n d v).trans (hstanding.notices.leaves_emptyCauses n v)
  obtain ⟨hwords, hsegWords⟩ := hstanding.modifyCore_words hspace
  have hsame := fun he => State.modifyCore_of_cls_eq (s := { s with lastTaken := .slot p }) (n := n) (d := d) he
  have hmoved := fun hne => hstanding.modifyCore_of_cls_ne (n := n) (d := d) hdef hne
  have hnext : ((({ s with lastTaken := .slot p } : State).modifyCore n d).point n).next =
      if d.cls = r.cls then r.next else none := by
    split_ifs with he
    · exact (hsame he).1 n
    · exact (hmoved he).2.2.2
  obtain ⟨x, y, hslots⟩ := (({ s with lastTaken := .slot p } : State).modifyCore n d).complete_slots p .ok
    ((({ s with lastTaken := .slot p } : State).modifyCore n d).snapshot n)
  refine ⟨_, hexec, State.completed_completeSnapshot s _ p .ok n (by rw [hcore]) (hcore.port p) (hcore.port _), ?_⟩
  unfold State.completeSnapshot
  rw [hslots]
  refine ⟨?point, hothers, hnotices, fun he => ⟨fun m hm => ?kept, (hsame he).2⟩, fun hne => ?moved, ?grown, ?shrunk,
    hwords, hsegWords, ?frame⟩
  case point =>
    refine hpoint.trans ?_
    rw [← (({ s with lastTaken := .slot p } : State).sameChains_modifyCore n d).nexts n, hnext, modifiedRecord_eq, hkind]
    rfl
  case kept =>
    refine (hothers m hm).trans ?_
    rw [(hsame he).1 m]
    rfl
  case moved =>
    obtain ⟨hleft, hjoined, hkept, -⟩ := hmoved hne
    have htaken := s.sameChains_lastTaken (.slot p)
    have hdone := (({ s with lastTaken := .slot p } : State).modifyCore n d).sameChains_slots x y
    exact ⟨hleft.congr htaken.symm rfl hdone, fun l hl => (hjoined l (hl.same htaken)).same hdone,
      fun a l ha hac hl => (hkept a l ha hac (hl.same htaken)).same hdone⟩
  case grown => exact State.freeSegs_modifyCore_grown (s := { s with lastTaken := .slot p }) (n := n)
  case shrunk => exact State.returned_modifyCore_shrunk (n := n) hstanding.pool.1
  case frame =>
    rw [hcore]

end Sys2Proof.Machine

end

/-! ### RETIRE: the record and the waiting command (R11, R12, R37, R48) -/

section

namespace Sys2Proof.Machine.State

variable {s t u : State} {n m : PointNo} {p : Port} {k : Command}

/-! #### The command that waits on a retired point (R48) -/

theorem endsRetired_iff (ph : CmdPhase) : endsRetired ph = true ↔
    ph = .waitPoint ∨ ph = .waitGrant ∨ ph = .waitAccess ∨ ph = .waitWrite := by
  cases ph <;> simp [endsRetired]

theorem retireWaiter_of_ended (h : s.EndedByRetirement n p) :
    s.retireWaiter n p = (s.abandonAccess p).completeZero p .retired := by
  obtain ⟨c, hbusy, rfl, hphase⟩ := h
  have hends := (endsRetired_iff c.phase).mpr hphase
  simp [retireWaiter, hbusy, hends]

theorem retireWaiter_of_not_ended (h : ¬ s.EndedByRetirement n p) : s.retireWaiter n p = s := by
  unfold retireWaiter
  split
  next c hbusy =>
    refine if_neg fun hends => h ⟨c, hbusy, ?_⟩
    simp only [Bool.and_eq_true, beq_iff_eq, endsRetired_iff] at hends
    exact ⟨hends.2, hends.1⟩
  next => rfl

theorem endedByRetirement_congr (h : t.port p = s.port p) : t.EndedByRetirement n p ↔ s.EndedByRetirement n p := by
  unfold EndedByRetirement
  rw [busyWith_congr h]

theorem waiterRetired_of_ended (h : s.EndedByRetirement n p) : s.WaiterRetired (s.retireWaiter n p) p := by
  rw [retireWaiter_of_ended h, abandonAccess_eq]
  refine ⟨?_, ?_, fun r hr => ?_, ?_⟩
  · cases p <;> rfl
  · simp [completeZero]
  · simp [completeZero, hr.symm]
  · cases p <;> rfl

theorem retireWaiter_slots (s : State) (n : PointNo) (p : Port) :
    ∃ x y b, s.retireWaiter n p = { s with primary := x, maint := y, bus := b } := by
  by_cases h : s.EndedByRetirement n p
  · rw [retireWaiter_of_ended h, abandonAccess_eq]
    cases p <;> exact ⟨_, _, _, rfl⟩
  · exact ⟨s.primary, s.maint, s.bus, retireWaiter_of_not_ended h⟩

theorem port_retireWaiter_other (s : State) (n : PointNo) (p : Port) :
    (s.retireWaiter n (otherPort p)).port p = s.port p := by
  by_cases h : s.EndedByRetirement n (otherPort p)
  · rw [retireWaiter_of_ended h, abandonAccess_eq]
    cases p <;> rfl
  · rw [retireWaiter_of_not_ended h]

/-- A retirement that no command of port `p` waits on concerns the other port alone. -/
theorem retirePoint_of_not_ended (h : ¬ s.EndedByRetirement n p) :
    s.retirePoint n = (s.retireRecord n).retireWaiter n (otherPort p) := by
  have hrecord : ¬ (s.retireRecord n).EndedByRetirement n p :=
    mt (endedByRetirement_congr ((s.coreFrame_retireRecord n).port p)).mp h
  rw [retirePoint_eq]
  cases p with
  | primary => rw [retireWaiter_of_not_ended hrecord]; rfl
  | maint =>
    have hother := (s.retireRecord n).port_retireWaiter_other n .maint
    exact retireWaiter_of_not_ended (mt (endedByRetirement_congr hother).mp hrecord)

theorem WaiterRetired.congr (h : s.WaiterRetired t p) (hp : u.port p = s.port p) (hb : u.bus = s.bus) :
    u.WaiterRetired t p := by
  unfold WaiterRetired entry at *
  rw [hp, hb]
  exact h

theorem waiterEnds_retirePoint (h : ¬ s.EndedByRetirement n p) : s.WaiterEnds (s.retirePoint n) n (otherPort p) := by
  have hcore := s.coreFrame_retireRecord n
  have hsame := endedByRetirement_congr (n := n) (hcore.port (otherPort p))
  rw [retirePoint_of_not_ended h]
  refine ⟨fun he => ?_, fun hne => ?_⟩
  · exact (waiterRetired_of_ended (hsame.mpr he)).congr (hcore.port _).symm hcore.bus.symm
  · rw [retireWaiter_of_not_ended (mt hsame.mp hne)]
    exact ⟨hcore.port _, hcore.bus⟩

theorem port_retirePoint (h : ¬ s.EndedByRetirement n p) : (s.retirePoint n).port p = s.port p := by
  rw [retirePoint_of_not_ended h, port_retireWaiter_other, (s.coreFrame_retireRecord n).port]

/-- A completed command waits on nothing. -/
theorem WaiterRetired.not_ended (h : s.WaiterRetired t p) (m : PointNo) : ¬ t.EndedByRetirement m p := by
  obtain ⟨hport, -⟩ := h
  rintro ⟨c, hbusy, -⟩
  simp [busyWith, slot, hport] at hbusy

/-- A queued command waits on no point. -/
theorem NextCommand.not_ended {name : CmdName} {c : Command} (h : s.NextCommand p name c) (n : PointNo) :
    ¬ s.EndedByRetirement n p := by
  obtain ⟨hturn, hbusy, -⟩ := h
  obtain ⟨-, -, hasks, -⟩ := tableTurn_eq_some_iff.mp hturn
  have hqueued : c.phase = .queued := by simpa [asksTable, hbusy] using hasks
  rintro ⟨c', hbusy', -, hphase⟩
  obtain rfl : c = c' := by simpa [hbusy] using hbusy'
  simp [hqueued] at hphase

/-! #### The record (R11, R12) -/

theorem segWords_retireRecord (s : State) (n : PointNo) : (s.retireRecord n).segWords = s.segWords := by
  by_cases hf : (s.point n).inFlight = .none
  · rw [retireRecord_of_idle hf]
    simp [detach]
  · rw [retireRecord_of_flight hf]
    simp [detach]

theorem emptyCauses_detach (s : State) (n : PointNo) : (s.detach n).emptyCauses n = s.detach n :=
  emptyCauses_of_causes_eq (by rw [point_detach, if_pos rfl])

/-- The chains are those of the unlinking, and the notice sets those of the emptying of CAUSES. -/
theorem retireRecord_keeps (s : State) (n : PointNo) :
    (∀ x, (s.retireRecord n).chain x = (s.unlinkFrom (s.point n).cls n).chain x) ∧
    (∀ k, (s.retireRecord n).classState k = (s.unlinkFrom (s.point n).cls n).classState k) ∧
    ∀ v, (s.retireRecord n).noticeSet v = ((s.unlinkFrom (s.point n).cls n).emptyCauses n).noticeSet v := by
  by_cases hf : (s.point n).inFlight = .none
  · rw [retireRecord_of_idle hf, freePoint, emptyCauses_detach]
    simp [detach]
  · rw [retireRecord_of_flight hf]
    simp [detach]

theorem next_retireRecord (s : State) (n m : PointNo) :
    ((s.retireRecord n).point m).next = ((s.unlinkFrom (s.point n).cls n).point m).next := by
  rw [point_retireRecord]
  split_ifs with hm hf
  · subst hm
    simp [next_unlinkFrom, Point.free]
  · subst hm
    simp [next_unlinkFrom]
  · rfl

theorem sameChains_retireRecord (s : State) (n : PointNo) :
    (s.unlinkFrom (s.point n).cls n).SameChains (s.retireRecord n) where
  chains := (s.retireRecord_keeps n).1
  nexts := s.next_retireRecord n
  passes := (s.retireRecord_keeps n).2.1

theorem freeSegs_retireRecord_of_idle (h : (s.point n).inFlight = .none) :
    (s.retireRecord n).freeSegs = (s.returnSegments (s.point n).segments).freeSegs := by
  rw [retireRecord_of_idle h, freePoint, emptyCauses_detach]
  rw [point_detach, if_pos rfl]
  simp [returnSegments, detach]

theorem freeSegs_retireRecord_of_flight (h : (s.point n).inFlight ≠ .none) : (s.retireRecord n).freeSegs = s.freeSegs := by
  rw [retireRecord_of_flight h]
  simp [detach]

theorem othersKept_retireRecord (s : State) (n : PointNo) : s.OthersKept (s.retireRecord n) n := fun m hm => by
  rw [point_retireRecord, if_neg hm.symm]

theorem NoticesAgree.leaves_retireRecord (h : s.NoticesAgree) (n : PointNo) : s.LeavesNotices (s.retireRecord n) n := by
  have hunlinked : (s.unlinkFrom (s.point n).cls n).NoticesAgree := h.congr (by simp) fun m => by
    rw [onlyNextMoves_unlinkFrom s (s.point n).cls n m]
    exact ⟨rfl, rfl⟩
  intro v
  rw [(s.retireRecord_keeps n).2.2 v, hunlinked.leaves_emptyCauses n v]
  simp

/-- A retired point leaves its chain, and the other chains are as they were (R11, R16). -/
theorem Standing.leaves_retireRecord (h : s.Standing) (hn : (s.point n).state.isDefined = true) :
    s.LeavesChain (s.retireRecord n) n ∧
    ∀ x l, x ≠ (s.point n).cls → s.ChainIs x l → (s.retireRecord n).ChainIs x l := by
  have hsame := s.sameChains_retireRecord n
  obtain ⟨hleft, hkept, -⟩ := h.chainsAgree.unlinkFrom_effect hn
  exact ⟨hleft.congr ⟨fun _ => rfl, fun _ => rfl, fun _ => rfl⟩ rfl hsame, fun x l hx hl => (hkept x l hx hl).same hsame⟩

/-- What the retirement of points leaves unchanged. -/
def RetireFrame (s t : State) : Prop := t = { s with
  points := t.points, chains := t.chains, freeSegs := t.freeSegs, scan := { s.scan with classes := t.scan.classes }
  notify := { s.notify with sets := t.notify.sets }, bus := t.bus, primary := t.primary, maint := t.maint }

theorem RetireFrame.trans (h : s.RetireFrame t) (h' : t.RetireFrame u) : s.RetireFrame u := by
  unfold RetireFrame at *
  rw [h', h]

theorem retireFrame_retirePoint (s : State) (n : PointNo) : s.RetireFrame (s.retirePoint n) := by
  have hcore := s.coreFrame_retireRecord n
  obtain ⟨x, y, b, hfirst⟩ := (s.retireRecord n).retireWaiter_slots n .primary
  obtain ⟨x', y', b', hsecond⟩ := ((s.retireRecord n).retireWaiter n .primary).retireWaiter_slots n .maint
  have hwords := s.segWords_retireRecord n
  unfold CoreFrame at hcore
  rw [hwords] at hcore
  unfold RetireFrame
  rw [retirePoint_eq, hsecond, hfirst, hcore]

/-- A port's own registers add to what a retirement changes. -/
theorem RetireFrame.setPort (h : ({ s with lastTaken := .slot p } : State).RetireFrame t) (z : PortState) :
    t.setPort p z = { s with
      points := (t.setPort p z).points, chains := (t.setPort p z).chains, freeSegs := (t.setPort p z).freeSegs
      scan := { s.scan with classes := (t.setPort p z).scan.classes }
      notify := { s.notify with sets := (t.setPort p z).notify.sets }
      bus := (t.setPort p z).bus, lastTaken := (t.setPort p z).lastTaken
      primary := (t.setPort p z).primary, maint := (t.setPort p z).maint } := by
  unfold RetireFrame at h
  rw [h]
  cases p <;> rfl

theorem sameChains_retireWaiter (s : State) (n : PointNo) (p : Port) : s.SameChains (s.retireWaiter n p) := by
  constructor <;> simp

theorem sameChains_retirePoint (s : State) (n : PointNo) : (s.retireRecord n).SameChains (s.retirePoint n) :=
  (sameChains_retireWaiter _ n .primary).trans (sameChains_retireWaiter _ n .maint)

/-- What the retirement of a point in use does, whatever port asks for it (R11, R12, R48). -/
theorem Standing.retirePoint_effect (h : s.Standing) (hn : (s.point n).state.isDefined = true)
    (hp : ¬ s.EndedByRetirement n p) :
    s.OthersKept (s.retirePoint n) n ∧ s.LeavesChain (s.retirePoint n) n ∧
    (∀ x l, x ≠ (s.point n).cls → s.ChainIs x l → (s.retirePoint n).ChainIs x l) ∧
    s.LeavesNotices (s.retirePoint n) n ∧ s.WaiterEnds (s.retirePoint n) n (otherPort p) ∧
    (s.retirePoint n).port p = s.port p := by
  have hsame := s.sameStanding_retirePoint n
  have hchains := s.sameChains_retirePoint n
  obtain ⟨hleft, hkept⟩ := h.leaves_retireRecord hn
  refine ⟨fun m hm => ?_, hleft.congr ⟨fun _ => rfl, fun _ => rfl, fun _ => rfl⟩ rfl hchains,
    fun x l hx hl => (hkept x l hx hl).same hchains, fun v => ?_, waiterEnds_retirePoint hp, port_retirePoint hp⟩
  · rw [point_retirePoint]
    exact s.othersKept_retireRecord n m hm
  · rw [hsame.sets]
    exact h.notices.leaves_retireRecord n v

/-- The port's own registers are of no concern to what a retirement does to the table and to the other port. -/
theorem WaiterEnds.setPort (h : s.WaiterEnds t n (otherPort p)) (z : PortState) :
    s.WaiterEnds (t.setPort p z) n (otherPort p) := by
  have hother : (t.setPort p z).port (otherPort p) = t.port (otherPort p) :=
    port_setPort_other _ (by cases p <;> decide) z
  have hbus : (t.setPort p z).bus = t.bus := by simp
  have hentry : ∀ r, (t.setPort p z).entry r = t.entry r := by simp
  unfold WaiterEnds WaiterRetired at *
  rw [hother, hbus]
  simp only [hentry]
  exact h

theorem point_setPort (s : State) (p : Port) (z : PortState) (n : PointNo) : (s.setPort p z).point n = s.point n := by
  simp

theorem freeSegs_setPort (s : State) (p : Port) (z : PortState) : (s.setPort p z).freeSegs = s.freeSegs := by
  simp

theorem sameChains_setPort (s : State) (p : Port) (z : PortState) : s.SameChains (s.setPort p z) := by
  constructor <;> simp

theorem complete_eq_setPort (hp : u.port p = s.port p) (code : ResultCode) (a : Vector Word 64) :
    u.complete p code a = u.setPort p { s.port p with slot := { state := .done, result := code, area := a } } := by
  rw [complete, setSlot, hp]

theorem enterPhase_eq_setPort (hp : u.port p = s.port p) (hb : s.busyWith p = some k) (ph : CmdPhase) :
    u.enterPhase p ph = u.setPort p { s.port p with slot := { s.slot p with state := .busy { k with phase := ph } } } := by
  have hslot : u.slot p = s.slot p := by rw [slot, slot, hp]
  rw [enterPhase_of_busy ((busyWith_congr hp).trans hb), setSlot, hp, hslot]

/-- What a RETIRE does besides the record, the segments and its own slot (R11, R12, R48). -/
theorem NextCommand.retired (h : s.NextCommand p .retire k) (hs : s.Standing)
    (hn : (s.point n).state.isDefined = true) (z : PortState) :
    s.OthersKept ((({ s with lastTaken := .slot p } : State).retirePoint n).setPort p z) n ∧
    s.LeavesChain ((({ s with lastTaken := .slot p } : State).retirePoint n).setPort p z) n ∧
    (∀ x l, x ≠ (s.point n).cls → s.ChainIs x l →
      ((({ s with lastTaken := .slot p } : State).retirePoint n).setPort p z).ChainIs x l) ∧
    s.LeavesNotices ((({ s with lastTaken := .slot p } : State).retirePoint n).setPort p z) n ∧
    s.WaiterEnds ((({ s with lastTaken := .slot p } : State).retirePoint n).setPort p z) n (otherPort p) := by
  have htaken := s.sameChains_lastTaken (.slot p)
  have hended : ¬ ({ s with lastTaken := .slot p } : State).EndedByRetirement n p := h.not_ended n
  have hstanding : ({ s with lastTaken := .slot p } : State).Standing := hs.same (sameStanding_lastTaken s _)
  obtain ⟨hothers, hleft, hkept, hnotices, hwaiter, -⟩ := hstanding.retirePoint_effect (n := n) hn hended
  have hdone := sameChains_setPort (({ s with lastTaken := .slot p } : State).retirePoint n) p z
  refine ⟨fun m hm => ?_, hleft.congr htaken.symm rfl hdone, fun x l hx hl => (hkept x l hx (hl.same htaken)).same hdone,
    fun v => ?_, hwaiter.setPort z⟩
  · simpa using hothers m hm
  · have hkept : ((({ s with lastTaken := .slot p } : State).retirePoint n).setPort p z).noticeSet v =
        (({ s with lastTaken := .slot p } : State).retirePoint n).noticeSet v := by simp
    exact hkept.trans (hnotices v)

end Sys2Proof.Machine.State

namespace Sys2Proof.Machine

/-- Settles O19: the record, the chain, the notice set, the segments and the waiting command, each by its own rule. -/
theorem retireFreesAPointAtOnce : Obligations.RetireFreesAPointAtOnce := by
  intro p c s h hcons n r hdef hholder hflight
  have hended : ¬ ({ s with lastTaken := .slot p } : State).EndedByRetirement n p := h.not_ended n
  have hrefusal : ({ s with lastTaken := .slot p } : State).refusal p n true = none :=
    State.refusal_eq_none hdef fun _ => hholder
  have hport : (({ s with lastTaken := .slot p } : State).retirePoint n).port p = s.port p := State.port_retirePoint hended
  have hexec := (h.exec_row (i := .retire p) rfl).trans
    (congrArg _ ((State.takeRetire_of_idle (s := { s with lastTaken := .slot p }) hrefusal hflight).trans
      (State.complete_eq_setPort hport .ok State.zeroArea)))
  obtain ⟨hothers, hleft, hkept, hnotices, hwaiter⟩ := h.retired (n := n) hcons.standing hdef
    { s.port p with slot := { state := .done, result := .ok, area := State.zeroArea } }
  refine ⟨_, hexec, by simp, by simp, ?point, hothers, hleft, hkept, hnotices, ?segs, hwaiter,
    (State.retireFrame_retirePoint _ n).setPort _⟩
  case point =>
    rw [State.point_setPort, State.point_retirePoint, State.point_retireRecord, if_pos rfl]
    exact if_pos hflight
  case segs =>
    have hfree := State.freeSegs_retireRecord_of_idle (s := { s with lastTaken := .slot p }) (n := n) hflight
    unfold State.Returned
    simp only [State.setPort_keeps, (State.sameStanding_retirePoint _ n).freeSegs, hfree]
    exact State.returned_returnSegments (s := { s with lastTaken := .slot p }) hcons.standing.pool.1 r.segments

/-- Settles O20: as for O19, with the record of a point in flight. -/
theorem retireOfAPointInFlightWaits : Obligations.RetireOfAPointInFlightWaits := by
  intro p c s h hcons n r hdef hholder hflight
  have ⟨_, hbusy, _⟩ := h
  have hended : ¬ ({ s with lastTaken := .slot p } : State).EndedByRetirement n p := h.not_ended n
  have hrefusal : ({ s with lastTaken := .slot p } : State).refusal p n true = none :=
    State.refusal_eq_none hdef fun _ => hholder
  have hport : (({ s with lastTaken := .slot p } : State).retirePoint n).port p = s.port p := State.port_retirePoint hended
  have hexec := (h.exec_row (i := .retire p) rfl).trans
    (congrArg _ ((State.takeRetire_of_flight (s := { s with lastTaken := .slot p }) hrefusal hflight).trans
      (State.enterPhase_eq_setPort (s := s) hport hbusy (.waitFree n 0))))
  obtain ⟨hothers, hleft, hkept, hnotices, hwaiter⟩ := h.retired (n := n) hcons.standing hdef
    { s.port p with slot := { s.slot p with state := .busy { c with phase := .waitFree n 0 } } }
  refine ⟨_, hexec, by simp, by simp, ?point, hothers, hleft, hkept, hnotices, hwaiter, ?frame⟩
  case frame =>
    have hfree : ((({ s with lastTaken := .slot p } : State).retirePoint n).setPort p
        { s.port p with slot := { s.slot p with state := .busy { c with phase := .waitFree n 0 } } }).freeSegs =
        s.freeSegs := by
      rw [State.freeSegs_setPort, (State.sameStanding_retirePoint _ n).freeSegs]
      exact State.freeSegs_retireRecord_of_flight (s := { s with lastTaken := .slot p }) hflight
    refine ((State.retireFrame_retirePoint { s with lastTaken := .slot p } n).setPort _).trans ?_
    rw [hfree]
  case point =>
    rw [State.point_setPort, State.point_retirePoint, State.point_retireRecord, if_pos rfl]
    exact if_neg hflight

end Sys2Proof.Machine

end

/-! ### CLEAR_ALL (R22, R38) -/

section

namespace Sys2Proof.Machine

/-- The record of a point in use after its retirement (R11, R12). -/
def retiredRecord (r : Point) : Point :=
  if r.inFlight = .none then Point.free
  else { r with state := .retiring, holder := none, writeAgain := false, causes := 0, next := none }

theorem retiredRecord_next (r : Point) (k : Option PointNo) : retiredRecord { r with next := k } = retiredRecord r := rfl

theorem isDefined_retiredRecord (r : Point) : (retiredRecord r).state.isDefined = false := by
  unfold retiredRecord
  split_ifs <;> rfl

namespace State

variable {s t u : State} {n m : PointNo} {p : Port} {k : Command} {ns : List PointNo}

/-! #### One retirement after the other -/

theorem point_retirePoint_self (s : State) (n : PointNo) : (s.retirePoint n).point n = retiredRecord (s.point n) := by
  rw [point_retirePoint, point_retireRecord, if_pos rfl]
  rfl

theorem point_retirePoint_ne (h : n ≠ m) :
    (s.retirePoint n).point m = { s.point m with next := ((s.retirePoint n).point m).next } := by
  rw [point_retirePoint, point_retireRecord, if_neg h]

/-- A point out of use is on no chain, so a retirement does not touch it. -/
theorem Standing.point_retirePoint_of_not_defined (h : s.Standing) (hn : (s.point n).state.isDefined = true)
    (hm : (s.point m).state.isDefined = false) : (s.retirePoint n).point m = s.point m := by
  have hne : n ≠ m := by
    rintro rfl
    simp [hn] at hm
  have hout : ¬ s.InUse m (s.point n).cls := fun ⟨hd, _⟩ => by simp [hm] at hd
  rw [point_retirePoint, point_retireRecord, if_neg hne, h.links.next_unlinkFrom (n := n) ⟨hn, rfl⟩ hout]

/-- The records after the retirement of these points, one after the other. -/
theorem Standing.points_foldl_retirePoint (h : s.Standing) (hnd : ns.Nodup)
    (hd : ∀ m ∈ ns, (s.point m).state.isDefined = true) :
    (∀ m, (s.point m).state.isDefined = false → (ns.foldl State.retirePoint s).point m = s.point m) ∧
    ∀ n ∈ ns, (ns.foldl State.retirePoint s).point n = retiredRecord (s.point n) := by
  induction ns generalizing s with
  | nil => exact ⟨fun _ _ => rfl, by simp⟩
  | cons n ns ih =>
    obtain ⟨hn, hns⟩ := List.nodup_cons.mp hnd
    have hdn := hd n (by simp)
    have hne : ∀ m ∈ ns, n ≠ m := fun m hm => by
      rintro rfl
      exact hn hm
    obtain ⟨hout, hin⟩ := ih (h.retirePoint hdn) hns fun m hm => by
      rw [state_retirePoint_ne (hne m hm)]
      exact hd m (by simp [hm])
    have hself := s.point_retirePoint_self n
    refine ⟨fun m hm => ?_, fun m hm => ?_⟩
    · have hkept := h.point_retirePoint_of_not_defined hdn hm
      exact (hout m (by rw [hkept]; exact hm)).trans hkept
    · rcases List.mem_cons.mp hm with rfl | hm
      · exact (hout m (by rw [hself]; exact isDefined_retiredRecord _)).trans hself
      · refine (hin m hm).trans ?_
        rw [point_retirePoint_ne (hne m hm), retiredRecord_next]

/-- A pass changes under a retirement only in whether it goes on, and where. -/
theorem classState_retirePoint (s : State) (n : PointNo) (c : ClassNo) : (s.retirePoint n).classState c =
    { s.classState c with
      inPass := ((s.retirePoint n).classState c).inPass, cursor := ((s.retirePoint n).classState c).cursor } := by
  rw [(s.sameChains_retirePoint n).passes, (s.retireRecord_keeps n).2.1, classState_unlinkFrom]
  split_ifs <;> rfl

theorem classState_foldl_retirePoint (ns : List PointNo) (s : State) (c : ClassNo) :
    (ns.foldl State.retirePoint s).classState c = { s.classState c with
      inPass := ((ns.foldl State.retirePoint s).classState c).inPass
      cursor := ((ns.foldl State.retirePoint s).classState c).cursor } := by
  induction ns generalizing s with
  | nil => rfl
  | cons n ns ih =>
    rw [List.foldl_cons, ih, classState_retirePoint]

theorem retireFrame_foldl_retirePoint (ns : List PointNo) (s : State) : s.RetireFrame (ns.foldl State.retirePoint s) := by
  induction ns generalizing s with
  | nil => exact rfl
  | cons n ns ih =>
    exact (s.retireFrame_retirePoint n).trans (ih _)

theorem WaiterRetired.congr_after (h : s.WaiterRetired t p) (hp : u.port p = t.port p) (hb : u.bus = t.bus) :
    s.WaiterRetired u p := by
  unfold WaiterRetired entry at *
  rw [hp, hb]
  exact h

/-- The waiting command of the other port ends with the first retirement it waits on, or stays (R48). -/
theorem waiter_foldl_retirePoint (hp : ∀ n, ¬ s.EndedByRetirement n p) :
    (ns.foldl State.retirePoint s).port p = s.port p ∧
    ((∃ n ∈ ns, s.EndedByRetirement n (otherPort p)) →
      s.WaiterRetired (ns.foldl State.retirePoint s) (otherPort p)) ∧
    ((∀ n ∈ ns, ¬ s.EndedByRetirement n (otherPort p)) →
      (ns.foldl State.retirePoint s).port (otherPort p) = s.port (otherPort p) ∧
      (ns.foldl State.retirePoint s).bus = s.bus) := by
  induction ns generalizing s with
  | nil => exact ⟨rfl, by simp, fun _ => ⟨rfl, rfl⟩⟩
  | cons n ns ih =>
    have hport := port_retirePoint (hp n)
    obtain ⟨hends, hstays⟩ := waiterEnds_retirePoint (hp n)
    obtain ⟨hfport, hfends, hfstays⟩ := ih (s := s.retirePoint n) fun m =>
      mt (endedByRetirement_congr hport).mp (hp m)
    rw [List.foldl_cons]
    refine ⟨hfport.trans hport, ?_, ?_⟩
    · rintro ⟨m, hm, hended⟩
      by_cases hn : s.EndedByRetirement n (otherPort p)
      · have hretired := hends hn
        obtain ⟨hsame, hbus⟩ := hfstays fun m _ => hretired.not_ended m
        exact hretired.congr_after hsame hbus
      · obtain ⟨hsame, hbus⟩ := hstays hn
        have hmem : m ∈ ns := (List.mem_cons.mp hm).resolve_left (by rintro rfl; exact hn hended)
        exact (hfends ⟨m, hmem, (endedByRetirement_congr hsame).mpr hended⟩).congr hsame.symm hbus.symm
    · intro hnone
      obtain ⟨hsame, hbus⟩ := hstays (hnone n (by simp))
      obtain ⟨hsame', hbus'⟩ := hfstays fun m hm => mt (endedByRetirement_congr hsame).mp (hnone m (by simp [hm]))
      exact ⟨hsame'.trans hsame, hbus'.trans hbus⟩

/-! #### A table with no point in use -/

theorem Standing.chain_empty (h : s.Standing) (hnone : ∀ n, (s.point n).state.isDefined = false) (c : ClassSel) :
    s.chain c = Chain.empty := by
  obtain ⟨l, ⟨hl, -, htail, hlen⟩, hmem⟩ := h.chainsAgree c
  have hnil : l = [] := List.eq_nil_iff_forall_not_mem.mpr fun n hn => by simpa [hnone n] using (hmem n).mp hn
  subst hnil
  have hhead : (s.chain c).head = none := hl
  calc s.chain c = ⟨(s.chain c).head, (s.chain c).tail, (s.chain c).length⟩ := rfl
    _ = Chain.empty := by rw [hhead, htail, hlen]; rfl

theorem Standing.noticeSet_empty (h : s.Standing) (hnone : ∀ n, (s.point n).state.isDefined = false) (v : Level) :
    s.noticeSet v = [] := by
  refine List.eq_nil_iff_forall_not_mem.mpr fun n hn => ((h.notices.2 n v).mp hn).1 ?_
  have hout := hnone n
  by_cases hf : (s.point n).state = .free
  · rw [(h.records n).free hf]
    rfl
  · refine ((h.records n).retiring ?_).1
    by_contra hr
    simp [Health.isDefined_iff.mpr ⟨hf, hr⟩] at hout

theorem Standing.pass_ended (h : s.Standing) (hnone : ∀ n, (s.point n).state.isDefined = false) (c : ClassNo) :
    (s.classState c).inPass = false ∧ (s.classState c).cursor = none := by
  obtain ⟨hpass, hcursor⟩ := h.links.2 c
  have hend : (s.classState c).cursor = none := Option.eq_none_iff_forall_ne_some.mpr fun n hn => by
    obtain ⟨hd, -⟩ := hcursor n hn
    simp [hnone n] at hd
  exact ⟨by rw [hpass, hend]; rfl, hend⟩

/-! #### The command -/

theorem classState_setPort (s : State) (p : Port) (z : PortState) (c : ClassNo) :
    (s.setPort p z).classState c = s.classState c := by
  simp

theorem takeClearAll_of_held {n : PointNo} (h : (s.point n).holder = some (otherPort p)) :
    takeClearAll p k s = s.completeZero p .held := by
  have hany : allPoints.any (s.heldAgainst p) = true :=
    List.any_eq_true.mpr ⟨n, by simp [allPoints], heldAgainst_iff.mpr h⟩
  exact if_pos hany

theorem not_any_heldAgainst (h : ∀ n, (s.point n).holder ≠ some (otherPort p)) :
    ¬ allPoints.any (s.heldAgainst p) = true := fun hany => by
  obtain ⟨n, -, hn⟩ := List.any_eq_true.mp hany
  exact h n (heldAgainst_iff.mp hn)

/-- With no point held by the other port and no access in flight, the points in use are retired and the slot completes. -/
theorem takeClearAll_of_idle (h : ∀ n, (s.point n).holder ≠ some (otherPort p))
    (hf : s.inUsePoints.find? (fun n => (s.point n).inFlight != .none) = none) : takeClearAll p k s =
      (s.inUsePoints.foldl retirePoint s).complete p .ok (clearAllArea s.inUsePoints.length 0) := by
  unfold takeClearAll
  unfold inUsePoints at hf ⊢
  rw [if_neg (not_any_heldAgainst h)]
  dsimp only
  rw [hf]

/-- With an access in flight on one of them, the slot waits for that point to become FREE. -/
theorem takeClearAll_of_flight (h : ∀ n, (s.point n).holder ≠ some (otherPort p))
    (hf : s.inUsePoints.find? (fun n => (s.point n).inFlight != .none) = some n) : takeClearAll p k s =
      (s.inUsePoints.foldl retirePoint s).enterPhase p (.waitFree n s.inUsePoints.length) := by
  unfold takeClearAll
  unfold inUsePoints at hf ⊢
  rw [if_neg (not_any_heldAgainst h)]
  dsimp only
  rw [hf]

theorem clearAllArea_zero (count : Nat) :
    clearAllArea count 0 = resultArea fun i => if i = 0 then place 0 count else 0 := by
  refine congrArg resultArea (funext fun i => ?_)
  match i with
  | 0 => rfl
  | 1 => rfl
  | i + 2 => rfl

/-- The slot after CLEAR_ALL, the table after it apart. -/
theorem exists_takeClearAll (hh : ∀ n, (s.point n).holder ≠ some (otherPort p)) (ha : s.AccessAgrees)
    (hb : s.busyWith p = some k) (hend : ∀ n, ¬ s.EndedByRetirement n p) :
    ∃ z, takeClearAll p k s = (s.inUsePoints.foldl State.retirePoint s).setPort p z ∧
      ((∀ n, (s.point n).state.isDefined = true → (s.point n).inFlight = .none) → z = { s.port p with slot := {
        state := .done, result := .ok
        area := resultArea fun i => if i = 0 then place 0 s.inUsePoints.length else 0 } }) ∧
      ∀ n, (s.point n).state.isDefined = true → (s.point n).inFlight ≠ .none → z = { s.port p with slot := { s.slot p with
        state := .busy { k with phase := .waitFree n s.inUsePoints.length } } } := by
  obtain ⟨hport, -⟩ := waiter_foldl_retirePoint (ns := s.inUsePoints) hend
  cases hfind : s.inUsePoints.find? fun n => (s.point n).inFlight != .none with
  | none =>
    have hidle : ∀ n, (s.point n).state.isDefined = true → (s.point n).inFlight = .none := fun n hn => by
      simpa using List.find?_eq_none.mp hfind n (mem_inUsePoints.mpr hn)
    refine ⟨_, (takeClearAll_of_idle hh hfind).trans (complete_eq_setPort hport .ok _), fun _ => by rw [clearAllArea_zero], fun n hn hf => absurd (hidle n hn) hf⟩
  | some m =>
    have hflight : (s.point m).inFlight ≠ .none := by simpa using List.find?_some hfind
    have hused := mem_inUsePoints.mp (List.mem_of_find?_eq_some hfind)
    refine ⟨_, (takeClearAll_of_flight hh hfind).trans (enterPhase_eq_setPort hport hb _), fun hidle => absurd (hidle m hused) hflight, fun n _ hf => ?_⟩
    obtain rfl : m = n := Option.some.inj (((ha m).mp hflight).symm.trans ((ha n).mp hf))
    rfl

end State

/-- Settles O28: the retirements one after the other, with the standing facts of a table that has no point in use. -/
theorem clearAllEmptiesTheTable : Obligations.ClearAllEmptiesTheTable := by
  intro p c s h hcons used count
  refine ⟨fun ⟨n, hn⟩ => h.refusedWith rfl (State.takeClearAll_of_held (k := c) hn), fun hh => ?_⟩
  have ⟨_, hbusy, _⟩ := h
  have hstanding : ({ s with lastTaken := .slot p } : State).Standing := hcons.standing.same (s.sameStanding_lastTaken _)
  have hended : ∀ n, ¬ ({ s with lastTaken := .slot p } : State).EndedByRetirement n p := h.not_ended
  have hmem : ∀ n, n ∈ s.inUsePoints ↔ used n = true := fun n => State.mem_inUsePoints
  obtain ⟨z, htake, hidle, hflight⟩ := State.exists_takeClearAll (s := { s with lastTaken := .slot p }) (k := c) hh
    hcons.accessAgrees hbusy hended
  have hexec : exec (.clearAll p) s =
      .next ((s.inUsePoints.foldl State.retirePoint { s with lastTaken := .slot p }).setPort p z) :=
    (h.exec_row (i := .clearAll p) rfl).trans (congrArg _ htake)
  obtain ⟨hout, hin⟩ := hstanding.points_foldl_retirePoint s.nodup_inUsePoints fun m hm => (hmem m).mp hm
  have hafter := hstanding.foldl_retirePoint s.nodup_inUsePoints fun m hm => (hmem m).mp hm
  have hframe := State.retireFrame_foldl_retirePoint s.inUsePoints { s with lastTaken := .slot p }
  have hclass := State.classState_foldl_retirePoint s.inUsePoints { s with lastTaken := .slot p }
  obtain ⟨-, hends, hstays⟩ := State.waiter_foldl_retirePoint (ns := s.inUsePoints) hended
  have hdefined : ∀ n, ((s.inUsePoints.foldl State.retirePoint { s with lastTaken := .slot p }).point n).state.isDefined =
      false := fun n => by
    cases hu : used n with
    | false => exact (congrArg (fun r => r.state.isDefined) (hout n hu)).trans hu
    | true => exact (congrArg (fun r => r.state.isDefined) (hin n ((hmem n).mpr hu))).trans (isDefined_retiredRecord _)
  generalize hv : s.inUsePoints.foldl State.retirePoint { s with lastTaken := .slot p } = v at *
  have hother : (v.setPort p z).port (State.otherPort p) = v.port (State.otherPort p) :=
    State.port_setPort_other _ (by cases p <;> decide) z
  have hbus : (v.setPort p z).bus = v.bus := by simp
  refine ⟨v.setPort p z, hexec, ?last, fun n hn => ?kept, fun n hn hf => ?free, fun n hn hf => ?retiring,
    fun x => ?chains, fun l => ?sets, fun k => ?classes, ?order, fun g => ?pool, fun hi => ?done, fun n hn hf => ?waits,
    fun he => ?retired, fun hne => ?stays, ?frame⟩
  case last =>
    unfold State.RetireFrame at hframe
    rw [hframe]
    cases p <;> rfl
  case kept => simpa using hout n hn
  case free =>
    rw [State.point_setPort, hin n ((hmem n).mpr hn)]
    exact if_pos hf
  case retiring =>
    rw [State.point_setPort, hin n ((hmem n).mpr hn)]
    exact if_neg hf
  case chains => simpa using hafter.chain_empty hdefined x
  case sets => simpa using hafter.noticeSet_empty hdefined l
  case classes =>
    obtain ⟨hpass, hcursor⟩ := hafter.pass_ended hdefined k
    have hk := hclass k
    rw [hpass, hcursor] at hk
    exact (State.classState_setPort v p z k).trans hk
  case order => simpa using hafter.pool.1
  case pool => simpa using hafter.pool.2.1 g
  case done =>
    rw [State.port_setPort_self]
    exact hidle hi
  case waits =>
    rw [State.port_setPort_self]
    exact hflight n hn hf
  case retired =>
    obtain ⟨n, hn, hwaits⟩ := he
    exact ((hends ⟨n, (hmem n).mpr hn, hwaits⟩).congr_after hother hbus).congr rfl rfl
  case stays =>
    obtain ⟨hsame, hsameBus⟩ := hstays fun n hn => hne n ((hmem n).mp hn)
    exact ⟨hother.trans hsame, hbus.trans hsameBus⟩
  case frame => exact hframe.setPort z

end Sys2Proof.Machine

end

/-! ### The beats of an access (R79, R80, R110 to R114, R130 to R133) -/

section

namespace Sys2Proof.Machine

variable {a : Access} {g : Grant} {bd : Word} {op op' : BeatOp}

/-! #### Which beat is at a position (R130) -/

theorem passBeats_eq (w : Width) : passBeats w = if w = .w32 then 2 else 1 := by cases w <;> rfl

theorem one_le_passBeats (w : Width) : 1 ≤ passBeats w := by cases w <;> decide

theorem passBeats_le_two (w : Width) : passBeats w ≤ 2 := by cases w <;> decide

theorem beatOp_read (hk : a.kind = .read) :
    beatOp a = if a.beat < passBeats a.width then some (.read (a.beat == 1)) else none := by
  unfold beatOp
  rw [hk]

theorem beatOp_write (hk : a.kind = .write) :
    beatOp a = if a.beat < passBeats a.width then some (.write (a.beat == 1)) else none := by
  unfold beatOp
  rw [hk]

theorem beatOp_writeVerify (hk : a.kind = .writeVerify) : beatOp a =
    if a.beat < passBeats a.width then some (.write (a.beat == 1))
    else if a.beat < 2 * passBeats a.width then some (.read (a.beat - passBeats a.width == 1)) else none := by
  unfold beatOp
  rw [hk]

theorem beatOp_fixed (hk : a.kind = .blockRead) (hp : a.prefixed = false) :
    beatOp a = if a.beat < a.blockLen then some .block else none := by
  unfold beatOp
  rw [hk, hp]
  rfl

theorem beatOp_prefixed (hk : a.kind = .blockRead) (hp : a.prefixed = true) : beatOp a =
    if a.beat = 0 then some .count else if a.beat ≤ a.announced then some .block else none := by
  unfold beatOp
  rw [hk, hp]
  rfl

/-! #### What a read beat gathers, and what the completion carries (R78 to R80) -/

theorem gather_w8 (h : a.width = .w8) (second : Bool) : gather a second bd =
    if a.offset.getLsbD 0 then (hiByte bd).setWidth 32 else (loByte bd).setWidth 32 := by
  unfold gather Access.odd
  rw [h]
  cases a.offset.getLsbD 0 <;> rfl

theorem gather_w16 (h : a.width = .w16) (second : Bool) : gather a second bd = bd.setWidth 32 := by
  unfold gather
  rw [h]

theorem gather_low (h : a.width = .w32) {second : Bool} (hs : carriesHigh a second = false) :
    gather a second bd = longOf (hiWord a.got) bd := by
  simp [gather, h, hs]

theorem gather_high (h : a.width = .w32) {second : Bool} (hs : carriesHigh a second = true) :
    gather a second bd = longOf bd (loWord a.got) := by
  simp [gather, h, hs]

theorem loByte_loWord (v : Long) : loByte (loWord v) = v.extractLsb' 0 8 := by
  unfold loByte loWord
  ext i hi
  simp [BitVec.getElem_extractLsb']

/-- An 8-bit write drives the lane of the point, with zero on the other (R79). -/
theorem beatData_low (h : a.width = .w8) (ho : a.offset.getLsbD 0 = false) (second : Bool) :
    beatData a second = wordOf 0 (loByte (loWord a.driven)) := by
  unfold beatData
  rw [h]
  exact if_neg (by rw [Access.odd, ho]; decide)

theorem beatData_high (h : a.width = .w8) (ho : a.offset.getLsbD 0 = true) (second : Bool) :
    beatData a second = wordOf (loByte (loWord a.driven)) 0 := by
  unfold beatData
  rw [h]
  exact if_pos ho

theorem completionOf_read (hk : a.kind = .read) :
    completionOf a .ok = ⟨.read, .ok, some a.got, none, none, none⟩ := by
  simp [completionOf, hk, AccessKind.isWrite]

theorem completionOf_write (hk : a.kind = .write) :
    completionOf a .ok = ⟨.write, .ok, none, some a.driven, none, none⟩ := by
  simp [completionOf, hk, AccessKind.isWrite]

theorem completionOf_writeVerify (hk : a.kind = .writeVerify) :
    completionOf a .ok = ⟨.writeVerify, .ok, none, some a.driven, some a.got, none⟩ := by
  simp [completionOf, hk, AccessKind.isWrite]

theorem completionOf_blockRead (hk : a.kind = .blockRead) :
    completionOf a .ok = ⟨.blockRead, .ok, none, none, none, some ⟨a.staged, a.truncated⟩⟩ := by
  simp [completionOf, hk, AccessKind.isWrite]

namespace State

variable {s u : State} {c : Completion}

/-! #### From beat to beat -/

/-- After a beat with another behind it, that one begins. -/
theorem endBeat_begins (hop : beatOp a = some op) (hnext : beatOp (afterBeat a op bd) = some op') :
    (s.endBeat g a bd).BeatBegins g (afterBeat a op bd) op'.isWrite op'.isSecond := by
  have hend : s.endBeat g a bd = s.beginBeat g (afterBeat a op bd) op' := by
    simp only [endBeat, hop, nextBeat, hnext]
  rw [hend]
  exact beatBegins_beginBeat s g _ op'

/-- After the last beat the access ends OK. -/
theorem endBeat_ends (hb : u.bus = s.bus) (hop : beatOp a = some op) (hnext : beatOp (afterBeat a op bd) = none)
    (hc : completionOf (afterBeat a op bd) .ok = c) : s.AccessEnds (u.endBeat g a bd) g (afterBeat a op bd) c := by
  have hend : u.endBeat g a bd = u.reportAccess g (afterBeat a op bd) .ok := by
    simp only [endBeat, hop, nextBeat, hnext]
  obtain ⟨hphase, hpins⟩ := accessEnds_reportAccess u g (afterBeat a op bd) .ok
  rw [hend, ← hc]
  exact ⟨hphase, hb ▸ hpins⟩

end State

/-- Settles O35: the read beats of each WIDTH in turn. -/
theorem readBeatsGatherTheRawValue : Obligations.ReadBeatsGatherTheRawValue := by
  intro i g a bd s h hk ended
  have hop : a.beat < passBeats a.width → beatOp a = some (.read (a.beat == 1)) := fun hb => by rw [beatOp_read hk, if_pos hb]
  have hnext : ∀ second, beatOp (afterBeat a (.read second) bd) =
      if a.beat + 1 < passBeats a.width then some (.read (a.beat + 1 == 1)) else none := fun second => beatOp_read hk
  have hdone : ∀ second, completionOf (afterBeat a (.read second) bd) .ok =
      ⟨.read, .ok, some (gather a second bd), none, none, none⟩ := fun second => completionOf_read hk
  generalize hu : ({ s with backAsserted := if i = Instr.beatAcknowledge bd then true else s.backAsserted } : State) = u
  have hbus : u.bus = s.bus := by rw [← hu]
  refine ⟨_, hu ▸ h.exec_eq, fun hw hb => ?w8, fun hw hb => ?w16, fun hw hb => ?first, fun hw hb => ?last, ?frame⟩
  case w8 =>
    have hends := State.endBeat_ends (g := g) (bd := bd) hbus (hop (by rw [hw, hb]; decide))
      (by rw [hnext, hw, hb]; rfl) (hdone _)
    rw [← gather_w8 hw (a.beat == 1)]
    exact hends
  case w16 =>
    have hends := State.endBeat_ends (g := g) (bd := bd) hbus (hop (by rw [hw, hb]; decide))
      (by rw [hnext, hw, hb]; rfl) (hdone _)
    rw [← gather_w16 hw (a.beat == 1)]
    exact hends
  case first =>
    have hbegins := State.endBeat_begins (s := u) (g := g) (bd := bd) (hop (by rw [hw, hb]; decide))
      ((hnext _).trans (if_pos (by rw [hw, hb]; decide)))
    rw [hb] at hbegins
    cases ho : a.cap.order with
    | lowFirst => rwa [afterBeat, gather_low hw (by simp [carriesHigh, ho]), hb] at hbegins
    | highFirst => rwa [afterBeat, gather_high hw (by simp [carriesHigh, ho]), hb] at hbegins
  case last =>
    have hends := State.endBeat_ends (g := g) (bd := bd) hbus (hop (by rw [hw, hb]; decide))
      (by rw [hnext, hw, hb]; rfl) (hdone _)
    rw [hb] at hends
    cases ho : a.cap.order with
    | lowFirst =>
      rw [afterBeat, gather_high hw (by simp [carriesHigh, ho]), hb] at hends
      dsimp only [ended]
      rwa [hb]
    | highFirst =>
      rw [afterBeat, gather_low hw (by simp [carriesHigh, ho]), hb] at hends
      dsimp only [ended]
      rwa [hb]
  case frame =>
    rw [State.endBeat_frame, ← hu]

/-- Settles O36: the position among the beats says which beat ends and which begins, and `beatData` the lanes. -/
theorem writeBeatsDriveAndReadBack : Obligations.WriteBeatsDriveAndReadBack := by
  refine ⟨?beats, fun a second => ⟨fun hw ho => ?low, fun hw ho => ?high, fun hw => ?word, fun hw => ?half⟩⟩
  case low =>
    rw [beatData_low hw ho, hiByte_wordOf, loByte_wordOf, loByte_loWord]
    exact ⟨rfl, rfl⟩
  case high =>
    rw [beatData_high hw ho, hiByte_wordOf, loByte_wordOf, loByte_loWord]
    exact ⟨rfl, rfl⟩
  case word => simp [beatData, hw, loWord]
  case half => simp [beatData, hw, carriesHigh, loWord, hiWord]
  case beats =>
    intro i g a bd s h n k second back
    have hn : passBeats a.width = n := passBeats_eq a.width
    have hone : 1 ≤ n := hn ▸ one_le_passBeats a.width
    have htwo : n ≤ 2 := hn ▸ passBeats_le_two a.width
    have hk : k = a.beat + 1 := rfl
    have hback : gather a (a.beat - n == 1) bd = back := by
      dsimp only [back]
      cases hw : a.width with
      | w8 => exact gather_w8 hw _
      | w16 => exact gather_w16 hw _
      | w32 =>
        have hsecond : (a.beat - n == 1) = decide (k = 4) := by
          have hn2 : n = 2 := if_pos hw
          rw [Bool.eq_iff_iff, beq_iff_eq, decide_eq_true_iff]
          omega
        rw [hsecond]
        cases ho : a.cap.order <;> cases hd : decide (k = 4)
        · exact gather_low hw (by simp [carriesHigh, ho])
        · exact gather_high hw (by simp [carriesHigh, ho])
        · exact gather_high hw (by simp [carriesHigh, ho])
        · exact gather_low hw (by simp [carriesHigh, ho])
    generalize hu : ({ s with backAsserted := if i = Instr.beatAcknowledge bd then true else s.backAsserted } : State) = u
    have hbus : u.bus = s.bus := by rw [← hu]
    refine ⟨_, hu ▸ h.exec_eq, fun hw hkn => ⟨fun hlast => ?writeEnds, fun hmore => ?writeGoesOn⟩, fun hv hkn => ?verifyWrites,
      fun hv hnk hkn => ⟨fun hmore => ?readsBack, fun hlast => ?verifyEnds⟩, ?frame⟩
    case writeEnds =>
      have hop : beatOp a = some (.write (a.beat == 1)) := by rw [beatOp_write hw, hn, if_pos (by omega)]
      have hnext : beatOp (afterBeat a (.write (a.beat == 1)) bd) = none :=
        (beatOp_write (a := afterBeat a (.write (a.beat == 1)) bd) hw).trans (if_neg (by show ¬ k < passBeats a.width; omega))
      exact State.endBeat_ends hbus hop hnext (completionOf_write hw)
    case writeGoesOn =>
      have hop : beatOp a = some (.write (a.beat == 1)) := by rw [beatOp_write hw, hn, if_pos (by omega)]
      have hnext : beatOp (afterBeat a (.write (a.beat == 1)) bd) = some (.write (k == 1)) :=
        (beatOp_write (a := afterBeat a (.write (a.beat == 1)) bd) hw).trans (if_pos (by show k < passBeats a.width; omega))
      have hsecond : second = (k == 1) := by
        rw [Bool.eq_iff_iff, beq_iff_eq, decide_eq_true_iff]
        omega
      rw [hsecond]
      exact State.endBeat_begins hop hnext
    case verifyWrites =>
      have hop : beatOp a = some (.write (a.beat == 1)) := by rw [beatOp_writeVerify hv, hn, if_pos (by omega)]
      have hnext := beatOp_writeVerify (a := afterBeat a (.write (a.beat == 1)) bd) hv
      by_cases hmore : k < n
      · have hsecond : second = (k == 1) := by
          rw [Bool.eq_iff_iff, beq_iff_eq, decide_eq_true_iff]
          omega
        rw [hsecond, decide_eq_true hmore]
        exact State.endBeat_begins hop (hnext.trans (if_pos (by show k < passBeats a.width; omega)))
      · have hsecond : second = (k - passBeats a.width == 1) := by
          rw [Bool.eq_iff_iff, beq_iff_eq, decide_eq_true_iff]
          omega
        rw [hsecond, decide_eq_false hmore]
        exact State.endBeat_begins hop ((hnext.trans (if_neg (by show ¬ k < passBeats a.width; omega))).trans
          (if_pos (by show k < 2 * passBeats a.width; omega)))
    case readsBack =>
      have hop : beatOp a = some (.read (a.beat - n == 1)) := by
        rw [beatOp_writeVerify hv, hn, if_neg (by omega), if_pos (by omega)]
      have hnext := beatOp_writeVerify (a := afterBeat a (.read (a.beat - n == 1)) bd) hv
      have hsecond : second = (k - passBeats a.width == 1) := by
        rw [Bool.eq_iff_iff, beq_iff_eq, decide_eq_true_iff]
        omega
      rw [hsecond, ← hback]
      exact State.endBeat_begins hop ((hnext.trans (if_neg (by show ¬ k < passBeats a.width; omega))).trans
        (if_pos (by show k < 2 * passBeats a.width; omega)))
    case verifyEnds =>
      have hop : beatOp a = some (.read (a.beat - n == 1)) := by
        rw [beatOp_writeVerify hv, hn, if_neg (by omega), if_pos (by omega)]
      have hnext := beatOp_writeVerify (a := afterBeat a (.read (a.beat - n == 1)) bd) hv
      rw [← hback]
      exact State.endBeat_ends hbus hop ((hnext.trans (if_neg (by show ¬ k < passBeats a.width; omega))).trans
        (if_neg (by show ¬ k < 2 * passBeats a.width; omega))) (completionOf_writeVerify hv)
    case frame => rw [State.endBeat_frame, ← hu]

/-- Settles O37: fixed-length and prefixed reads in turn. -/
theorem blockBeatsFillTheStagingBuffer : Obligations.BlockBeatsFillTheStagingBuffer := by
  intro i g a bd s h hk ended count counted kept
  generalize hu : ({ s with backAsserted := if i = Instr.beatAcknowledge bd then true else s.backAsserted } : State) = u
  have hbus : u.bus = s.bus := by rw [← hu]
  have hkept : afterBeat a .block bd = kept := rfl
  refine ⟨_, hu ▸ h.exec_eq, fun hp hb => ?fixed, fun hp hb => ?count, fun hp hone hb => ?prefixed, ?frame⟩
  case fixed =>
    have hop : beatOp a = some .block := (beatOp_fixed hk hp).trans (if_pos hb)
    have hnext := beatOp_fixed (a := afterBeat a .block bd) hk hp
    refine ⟨fun hlast => ?_, fun hmore => ?_⟩
    · exact State.endBeat_ends hbus hop (hnext.trans (if_neg (by show ¬ a.beat + 1 < a.blockLen; omega)))
        (completionOf_blockRead hk)
    · exact State.endBeat_begins hop (hnext.trans (if_pos hmore))
  case count =>
    have hop : beatOp a = some .count := (beatOp_prefixed hk hp).trans (if_pos hb)
    have hcounted : afterBeat a .count bd = counted := by
      dsimp only [afterBeat, counted, count]
      rw [hb]
    have hnext := (beatOp_prefixed (a := afterBeat a .count bd) hk hp).trans (if_neg (by show ¬ a.beat + 1 = 0; omega))
    refine ⟨fun hzero => ?_, fun hpos => ?_⟩
    · have hends := State.endBeat_ends (g := g) hbus hop (hnext.trans (if_neg (by show ¬ a.beat + 1 ≤ count; omega)))
        (completionOf_blockRead hk)
      rwa [hcounted] at hends
    · have hbegins := State.endBeat_begins (s := u) (g := g) hop
        (hnext.trans (if_pos (by show a.beat + 1 ≤ count; omega)))
      rwa [hcounted] at hbegins
  case prefixed =>
    have hop : beatOp a = some .block := ((beatOp_prefixed hk hp).trans (if_neg (by omega))).trans (if_pos hb)
    have hnext := (beatOp_prefixed (a := afterBeat a .block bd) hk hp).trans (if_neg (by show ¬ a.beat + 1 = 0; omega))
    refine ⟨fun hlast => ?_, fun hmore => ?_⟩
    · exact State.endBeat_ends hbus hop (hnext.trans (if_neg (by show ¬ a.beat + 1 ≤ a.announced; omega)))
        (completionOf_blockRead hk)
    · exact State.endBeat_begins hop (hnext.trans (if_pos hmore))
  case frame => rw [State.endBeat_frame, ← hu]

end Sys2Proof.Machine

end

/-! ### The start of an access (R24, R125 to R131) -/

section

namespace Sys2Proof.Machine

namespace State

variable {s v : State} {g : Grant} {p : Port} {r : Point} {a : Access}

theorem accessKind_isWrite (r : Point) : (accessKind r).isWrite = (r.kind == .output) := by
  unfold accessKind
  cases r.kind with
  | input | block => rfl
  | output => cases r.verify <;> rfl

theorem accessKind_eq_blockRead_iff (r : Point) : accessKind r = .blockRead ↔ r.kind = .block := by
  unfold accessKind
  cases r.kind with
  | input | block => simp
  | output => cases r.verify <;> simp

theorem inFlightOf_accessKind (r : Point) :
    inFlightOf (accessKind r) = if r.kind = .output then .write else .read := by
  rw [inFlightOf, accessKind_isWrite]
  simp

theorem noRegion_accessOf_iff (s : State) (r : Point) : noRegion (s.accessOf r) = true ↔
    (s.region r.region).enable = false ∨ 256 * 2 ^ (s.region r.region).sizeCode.toNat <
      r.offset.toNat + accessBytes r.kind r.width := by
  have hkind := accessKind_eq_blockRead_iff r
  simp only [noRegion, accessOf, sizeBytes, Bool.or_eq_true, Bool.not_eq_true', decide_eq_true_iff, hkind]
  cases r.kind <;> simp [accessBytes]

theorem startProtected_accessOf_iff (s : State) (g : Grant) (r : Point) : startProtected g (s.accessOf r) = true ↔
    r.kind = .output ∧ ((s.region r.region).readOnly = true ∨
      (s.region r.region).primaryOnly = true ∧ g.requester = .slot .maint ∧ g.forWrite = true) := by
  simp [startProtected, accessOf, accessKind_isWrite, and_assoc]

theorem completionOf_accessOf (s : State) (r : Point) {o : Outcome} (ho : o ≠ .ok) : completionOf (s.accessOf r) o =
    ⟨(s.accessOf r).kind, o, none, if r.kind = .output then some r.shadow else none, none, none⟩ := by
  simp [completionOf, ho, accessOf, accessKind_isWrite]

/-- The first beat of an access (R111, R112, R130): none for a fixed-length block read of no words. -/
theorem beatOp_accessOf (s : State) (r : Point) (h : r.kind = .block → 0 < r.blockLen) :
    ∃ op, beatOp (s.accessOf r) = some op ∧ op.isWrite = (r.kind == .output) ∧ op.isSecond = false := by
  have hpass : 0 < passBeats r.width := one_le_passBeats r.width
  cases hk : r.kind with
  | input =>
    have ha : (s.accessOf r).kind = .read := by simp [accessOf, accessKind, hk]
    exact ⟨_, (beatOp_read ha).trans (if_pos hpass), rfl, rfl⟩
  | output =>
    cases hv : r.verify with
    | false =>
      have ha : (s.accessOf r).kind = .write := by simp [accessOf, accessKind, hk, hv]
      exact ⟨_, (beatOp_write ha).trans (if_pos hpass), rfl, rfl⟩
    | true =>
      have ha : (s.accessOf r).kind = .writeVerify := by simp [accessOf, accessKind, hk, hv]
      exact ⟨_, (beatOp_writeVerify ha).trans (if_pos hpass), rfl, rfl⟩
  | block =>
    have ha : (s.accessOf r).kind = .blockRead := by simp [accessOf, accessKind, hk]
    cases hp : r.prefixed with
    | false => exact ⟨_, (beatOp_fixed ha hp).trans (if_pos (h hk)), rfl, rfl⟩
    | true => exact ⟨_, (beatOp_prefixed ha hp).trans (if_pos rfl), rfl, rfl⟩

/-! #### The requester learns of the start (R125) -/

theorem tellStarted_frame (s : State) (g : Grant) :
    ∃ sc x y, s.tellStarted g = { s with scan := sc, primary := x, maint := y } := by
  unfold tellStarted
  cases g.requester with
  | scan => exact ⟨_, _, _, rfl⟩
  | slot p =>
    dsimp only
    split_ifs
    · obtain ⟨x, y, hx⟩ := s.enterPhase_slots p .waitAccess
      exact ⟨_, x, y, hx⟩
    · exact ⟨_, _, _, rfl⟩

theorem tellStarted_scan (h : g.requester = .scan) : s.tellStarted g = s.scanFree := by
  rw [tellStarted, h]

theorem tellStarted_slot (h : g.requester = .slot p) :
    s.tellStarted g = if g.serving then s.enterPhase p .waitAccess else s := by
  rw [tellStarted, h]

theorem enterPhase_of_not_busy (h : s.busyWith p = none) (ph : CmdPhase) : s.enterPhase p ph = s := by
  unfold enterPhase
  rw [h]

/-- What the table engine does with a start that the checks of R127 and R128 then judge. -/
def beginAccess (s : State) (g : Grant) (a : Access) : State :=
  if noRegion a then s.reportAccess g a .noRegion
  else if startProtected g a then s.reportAccess g a .isProtected
  else s.nextBeat g a

theorem beginAccess_frame (s : State) (g : Grant) (a : Access) : s.beginAccess g a = { s with bus := { s.bus with
    phase := (s.beginAccess g a).bus.phase, pins := (s.beginAccess g a).bus.pins } } := by
  unfold beginAccess
  split_ifs
  · rfl
  · rfl
  · exact s.nextBeat_frame g a

theorem beginAccess_of_noRegion (h : noRegion a = true) : s.beginAccess g a = s.reportAccess g a .noRegion := if_pos h

theorem beginAccess_of_protected (hr : ¬ noRegion a = true) (h : startProtected g a = true) :
    s.beginAccess g a = s.reportAccess g a .isProtected := (if_neg hr).trans (if_pos h)

theorem beginAccess_of_beat {op : BeatOp} (hr : ¬ noRegion a = true) (hp : ¬ startProtected g a = true)
    (hop : beatOp a = some op) : s.beginAccess g a = s.beginBeat g a op := by
  rw [beginAccess, if_neg hr, if_neg hp, nextBeat, hop]

/-- An access that a check refuses ends with its driven value alone (R78, R127, R128). -/
theorem accessEnds_of_refused {u : State} {r : Point} (hb : u.bus = s.bus) {o : Outcome} (ho : o = .noRegion ∨ o = .isProtected) :
    s.AccessEnds (u.reportAccess g (s.accessOf r) o) g (s.accessOf r)
      ⟨(s.accessOf r).kind, o, none, if r.kind = .output then some r.shadow else none, none, none⟩ := by
  obtain ⟨hphase, hpins⟩ := accessEnds_reportAccess u g (s.accessOf r) o
  rw [hb] at hpins
  rw [← completionOf_accessOf s r (by rintro rfl; simp at ho)]
  rcases ho with rfl | rfl <;> exact ⟨hphase, hpins⟩

theorem port_enterPhase_other (s : State) (p : Port) (ph : CmdPhase) :
    (s.enterPhase p ph).port (otherPort p) = s.port (otherPort p) := by
  obtain ⟨x, hx⟩ := s.enterPhase_eq p ph
  rw [hx, port_setPort_other _ (by cases p <;> decide)]

theorem takeStart_of_free (h : (s.point g.point).state = .free) : s.takeStart g = (s.tellWithdrawn g).busIdle := by
  unfold takeStart
  exact if_pos h

/-- A point in use has IN_FLIGHT set, its requester told, and its access begun. -/
theorem takeStart_of_not_free (h : (s.point g.point).state ≠ .free) : s.takeStart g =
    ((s.setPoint g.point { s.point g.point with inFlight := inFlightOf (s.accessOf (s.point g.point)).kind }).tellStarted
      g).beginAccess g (s.accessOf (s.point g.point)) := by
  unfold takeStart
  exact if_neg h

theorem exec_accessStart (h : s.bus.phase = .granted g) (hl : s.loading = false) :
    exec .accessStart s = .next (s.takeStart g) := by
  show execAccessStart s = _
  unfold execAccessStart
  rw [h]
  dsimp only
  rw [hl]
  rfl

end State

/-- Settles O34: the refusal of a FREE point, and the three ends of a start that is made. -/
theorem accessStartFixesTheAccess : Obligations.AccessStartFixesTheAccess := by
  intro g s hp hl n r x a write len noRegion forbidden ended
  refine ⟨fun hfree => ?free, fun hdef => ?used⟩
  case free =>
    have htold : s.tellWithdrawn g = { s with
        scan := if g.requester = Requester.scan then { s.scan with req := ScanReq.free } else s.scan } := by
      unfold State.tellWithdrawn
      cases g.requester <;> rfl
    rw [State.exec_accessStart hp hl, State.takeStart_of_free hfree, htold]
  case used =>
    have hne : r.state ≠ .free := fun hf => by simp [hf, Health.isDefined] at hdef
    refine ⟨rfl, rfl, rfl, rfl, rfl, rfl, rfl, rfl, rfl, rfl, rfl, rfl, _,
      (State.exec_accessStart hp hl).trans (congrArg _ (State.takeStart_of_not_free hne)), ?_⟩
    obtain ⟨sc, x', y', hframe⟩ :=
      (s.setPoint n { r with inFlight := State.inFlightOf a.kind }).tellStarted_frame g
    have hscan : g.requester = .scan →
        (s.setPoint n { r with inFlight := State.inFlightOf a.kind }).tellStarted g =
          (s.setPoint n { r with inFlight := State.inFlightOf a.kind }).scanFree := State.tellStarted_scan
    have hslot := fun p (hreq : g.requester = .slot p) => State.tellStarted_slot
      (s := s.setPoint n { r with inFlight := State.inFlightOf a.kind }) hreq
    generalize hu : (s.setPoint n { r with inFlight := State.inFlightOf a.kind }).tellStarted g = u at *
    have hbus : u.bus = s.bus := by rw [hframe]; rfl
    have hback : u.backAsserted = s.backAsserted := by rw [hframe]; rfl
    have hbegin := u.beginAccess_frame g a
    have hregion : State.noRegion a = true ↔ noRegion := (s.noRegion_accessOf_iff r).trans (by
      cases hk : r.kind <;> simp [noRegion, len, hk, accessBytes, x])
    have hforbidden : State.startProtected g a = true ↔ forbidden := s.startProtected_accessOf_iff g r
    refine ⟨?point, fun m hm => ?others, fun hreq => ?tellsScan, fun p hreq => ?tellsSlot, fun hno => ?noRegion,
      fun hno hf => ?isProtected, fun hno hf hb => ?begins, ?frame⟩
    case point =>
      rw [hbegin, hframe]
      refine (s.point_setPoint_self n _).trans ?_
      rw [show State.inFlightOf a.kind = _ from State.inFlightOf_accessKind r]
    case others =>
      rw [hbegin, hframe]
      exact s.point_setPoint_ne hm.symm _
    case tellsScan =>
      rw [hbegin, hscan hreq]
      exact ⟨rfl, rfl, rfl⟩
    case tellsSlot =>
      have hkept : u.scan = s.scan ∧ u.port (State.otherPort p) = s.port (State.otherPort p) := by
        rw [hslot p hreq]
        split_ifs
        · exact ⟨by simp, (State.port_enterPhase_other _ p .waitAccess).trans rfl⟩
        · exact ⟨rfl, rfl⟩
      have hport : ∀ o, (u.beginAccess g a).port o = u.port o := fun o => by rw [hbegin]; rfl
      have hscanKept : (u.beginAccess g a).scan = u.scan := by rw [hbegin]
      obtain ⟨hscanSame, hotherSame⟩ := hkept
      refine ⟨hscanKept.trans hscanSame, (hport _).trans hotherSame, (hport p).trans ?_⟩
      rw [hslot p hreq]
      cases g.serving with
      | false => rfl
      | true =>
        cases hb : s.busyWith p with
        | none =>
          exact congrArg (fun t => t.port p) (State.enterPhase_of_not_busy
            (s := s.setPoint n { r with inFlight := State.inFlightOf a.kind }) hb .waitAccess)
        | some c =>
          refine (congrArg (fun t => t.port p) (State.enterPhase_of_busy
            (s := s.setPoint n { r with inFlight := State.inFlightOf a.kind }) hb .waitAccess)).trans ?_
          exact State.port_setPort_self _ _ _
    case noRegion =>
      rw [State.beginAccess_of_noRegion (hregion.mpr hno)]
      exact State.accessEnds_of_refused hbus (.inl rfl)
    case isProtected =>
      rw [State.beginAccess_of_protected (mt hregion.mp hno) (hforbidden.mpr hf)]
      exact State.accessEnds_of_refused hbus (.inr rfl)
    case begins =>
      obtain ⟨op, hop, hwrite, hsecond⟩ := s.beatOp_accessOf r hb
      rw [State.beginAccess_of_beat (mt hregion.mp hno) (mt hforbidden.mp hf) hop, ← hwrite, ← hsecond]
      exact State.beatBegins_beginBeat u g a op
    case frame =>
      rw [hbegin, hframe]
      rfl

end Sys2Proof.Machine

end

/-! ### Counted completions: failures, good writes and good block reads (R9, R89 to R95, R116) -/

section

namespace Sys2Proof.Machine

variable {r : Point} {before : List Word} {c : Completion}

/-- A failed completion has the failed transition, and WRITE_FAIL where it was a write (R9, R91). -/
theorem judge_failed (ho : c.outcome ≠ .ok) : judge r before c = {
    point := (failedHealth r).point
    raised := (if c.kind = .write ∨ c.kind = .writeVerify then 0x80 else 0) ||| (failedHealth r).raised } := by
  have hwrite : causeIf c.kind.isWrite Cause.writeFail = if c.kind = .write ∨ c.kind = .writeVerify then 0x80 else 0 := by
    cases c.kind <;> rfl
  unfold judge
  rw [← hwrite]
  cases hout : c.outcome with
  | ok => exact absurd hout ho
  | noRegion | isProtected | timeout => rfl

/-- A good WRITE: the driven bits, then the good transition (R9, R89). -/
theorem judge_goodWrite {driven : Long} (hk : c.kind = .write) (ho : c.outcome = .ok) (hd : c.driven = some driven) :
    judge r before c = {
      point := { r with value := zeroExtended r.width driven, state := .active, fails := 0, probe := 0 }
      raised := if r.state = .stale ∨ r.state = .faulted then 0x10 else 0 } := by
  rw [← causeIf_recover]
  simp only [judge, ho, judgeValue, hk, hd, judgeWrite, goodHealth]
  exact congrArg (Judged.mk _) BitVec.zero_or

theorem causeIf_verify (x y : Long) : causeIf (x != y) Cause.verify = if x = y then 0 else 0x20 := by
  by_cases h : x = y <;> simp [causeIf, h, Cause.verify]

/-- A good WRITE_VERIFY: the read-back, compared with the driven bits (R9, R90). -/
theorem judge_goodWriteVerify {driven back : Long} (hk : c.kind = .writeVerify) (ho : c.outcome = .ok)
    (hd : c.driven = some driven) (hb : c.readBack = some back) : judge r before c = {
      point := { r with
        value := zeroExtended r.width back
        mismatches := if zeroExtended r.width back = zeroExtended r.width driven then r.mismatches
          else min 255 (r.mismatches + 1)
        state := .active, fails := 0, probe := 0 }
      raised := (if zeroExtended r.width back = zeroExtended r.width driven then 0 else 0x20) |||
        (if r.state = .stale ∨ r.state = .faulted then 0x10 else 0) } := by
  rw [← causeIf_recover, ← causeIf_verify]
  simp only [judge, ho, judgeValue, hk, hd, hb, judgeWriteVerify, goodHealth, Config.countMax]
  by_cases h : zeroExtended r.width back = zeroExtended r.width driven <;> simp [h]

/-- Whether a good block read raises CHANGE (R92). -/
def blockChanged (r : Point) (before : List Word) (d : BlockData) : Bool :=
  r.state == .unread || decide (d.words.length ≠ r.lastLen) || decide (before.take d.words.length ≠ d.words)

/-- A good BLOCK_READ (R9, R92). -/
theorem judge_goodBlock {d : BlockData} (hk : c.kind = .blockRead) (ho : c.outcome = .ok) (hd : c.block = some d) :
    judge r before c = {
      point := { r with
        lastLen := d.words.length, value := (d.words.headD 0).setWidth 32, state := .active, fails := 0, probe := 0 }
      raised := causeIf (blockChanged r before d) Cause.change ||| (if d.truncated then 0x40 else 0) |||
        (if r.state = .stale ∨ r.state = .faulted then 0x10 else 0) } := by
  rw [← causeIf_recover]
  simp only [judge, ho, judgeValue, hk, hd, judgeBlock, goodHealth]
  rfl

/-- Two lists of words differ where one of their words does. -/
theorem take_map_range_ne_iff (f : Nat → Word) {len : Nat} {ws : List Word} (h : ws.length ≤ len) :
    ((List.range len).map f).take ws.length ≠ ws ↔ ∃ i, i < ws.length ∧ ws[i]? ≠ some (f i) := by
  have heq : ((List.range len).map f).take ws.length = ws ↔ ∀ i, i < ws.length → ws[i]? = some (f i) := by
    refine ⟨fun he i hi => ?_, fun he => ?_⟩
    · have hword : ws[i]? = (((List.range len).map f).take ws.length)[i]? := congrArg (·[i]?) he.symm
      rw [hword, List.getElem?_take_of_lt hi, List.getElem?_map, List.getElem?_range (by omega)]
      rfl
    · refine List.ext_getElem (by simpa using h) fun i _ hi => ?_
      have hw := he i hi
      rw [List.getElem?_eq_getElem hi, Option.some.injEq] at hw
      simp [hw]
  rw [ne_eq, heq]
  push Not
  rfl

namespace State

variable {s : State}

theorem commitCompletion_of_failed (h : c.outcome ≠ .ok) : s.commitCompletion r c = s := by
  unfold commitCompletion
  split
  next ho _ => exact absurd ho h
  next => rfl

theorem commitCompletion_block {d : BlockData} (hk : c.kind = .blockRead) (ho : c.outcome = .ok) (hd : c.block = some d) :
    s.commitCompletion r c = s.commitBlock r d.words := by
  unfold commitCompletion
  rw [hk, ho, hd]

end State

/-- Settles O41: the failed transition, threshold by threshold. -/
theorem failedCompletionCountsInFails : Obligations.FailedCompletionCountsInFails := by
  intro g x s hx hc hn ho n r move writeFail
  have hmove : failedHealth r =
      ⟨{ r with state := move.1, fails := move.2.1, probe := move.2.2.1 }, move.2.2.2⟩ := by
    unfold failedHealth move
    split_ifs with hfaulted
    · rw [← hfaulted]
      rfl
    · rfl
    · rfl
    · rfl
  obtain ⟨t, hexec, hpoint, hraised, hothers, hsegs, hframe⟩ := hx.counted_effect hc hn
  rw [judge_failed ho, hmove] at hpoint hraised
  exact ⟨t, hexec, hpoint, hraised, hothers, hsegs.trans (by rw [State.commitCompletion_of_failed ho]), hframe⟩

/-- Settles O43: the two kinds of write. -/
theorem goodWriteStoresTheValue : Obligations.GoodWriteStoresTheValue := by
  intro g x driven s hx hc hn ho hd n r low recover
  have hlow : ∀ y, zeroExtended r.width y = low y := fun y => by
    unfold low zeroExtended
    cases r.width <;> rfl
  obtain ⟨t, hexec, hpoint, hraised, hothers, hsegs, hframe⟩ := hx.counted_effect hc hn
  refine ⟨fun hk => ⟨t, hexec, ?_, ?_, hothers, hsegs.trans (by rw [State.commitCompletion_of_ne (by simp [hk])]), hframe⟩,
    fun back hk hb => ⟨t, hexec, ?_, ?_, hothers, hsegs.trans (by rw [State.commitCompletion_of_ne (by simp [hk])]), hframe⟩⟩
  · rw [judge_goodWrite hk ho hd, hlow] at hpoint
    exact hpoint
  · rw [judge_goodWrite hk ho hd] at hraised
    exact hraised
  · rw [judge_goodWriteVerify hk ho hd hb, hlow, hlow] at hpoint
    exact hpoint
  · rw [judge_goodWriteVerify hk ho hd hb, hlow, hlow] at hraised
    exact hraised

/-- Settles O44: the commit of the words, and `judgeBlock` on the words they replace. -/
theorem goodBlockReadIsCommitted : Obligations.GoodBlockReadIsCommitted := by
  intro g x d s hx hc hcons hk ho hd n r hblock hlen change
  obtain ⟨t, hexec, hpoint, hraised, hothers, hsegs, hframe⟩ := hx.counted_effect hc hcons.notices
  rw [judge_goodBlock hk ho hd] at hpoint hraised
  rw [State.commitCompletion_block hk ho hd] at hsegs
  obtain ⟨hnd, hlength⟩ := (hcons.standing.records n).segments
  have hcover : r.blockLen ≤ 8 * r.segments.length := by
    have hneeded : r.segments.length = (r.blockLen + 7) / 8 := hlength
    omega
  obtain ⟨hwords, hkept⟩ := State.commitBlock_words (s := s) (r := r) hnd hcover d.words
  have hchange : blockChanged r (s.blockWords r) d = true ↔ change := by
    unfold blockChanged State.blockWords change
    rw [Bool.or_eq_true, Bool.or_eq_true, beq_iff_eq, decide_eq_true_iff, decide_eq_true_iff,
      take_map_range_ne_iff _ hlen, or_assoc]
  refine ⟨t, hexec, hpoint, fun i hi => ?_, fun y hy => ?_,
    ⟨causeIf (blockChanged r (s.blockWords r) d) Cause.change, fun h => if_pos (hchange.mpr h),
      fun h => if_neg (mt hchange.mp h), hraised⟩, hothers, hframe⟩
  · have hsame : (t.point n).segments = r.segments := by rw [hpoint]
    rw [← hwords i hi]
    exact State.blockWord_congr hsame hsegs i
  · rw [hsegs]
    exact hkept y hy

end Sys2Proof.Machine

end

/-! ### What a completion does to the commands that wait on it (R42, R43, R46, R47) -/

section

namespace Sys2Proof.Machine.State

variable {s u v t : State} {g : Grant} {c : Completion} {n : PointNo} {p : Port} {owed shared : Bool} {o : Outcome}

/-- The access is the own access of the command of port `p`, which has this name. -/
def Owns (s : State) (g : Grant) (p : Port) (name : CmdName) : Prop :=
  g.serving = true ∧ g.requester = .slot p ∧ s.WaitsIn p name .waitAccess g.point

theorem ownAccess_iff {name : CmdName} : s.ownAccess g p name = true ↔ s.Owns g p name := by
  simp only [ownAccess, Bool.and_eq_true, beq_iff_eq, waits_iff, Owns, and_assoc]

theorem ownAccess_congr (h : u.port p = s.port p) (name : CmdName) : u.ownAccess g p name = s.ownAccess g p name := by
  rw [Bool.eq_iff_iff, ownAccess_iff, ownAccess_iff, Owns, Owns, waitsIn_congr h]

theorem waits_congr (h : u.port p = s.port p) (name : CmdName) (ph : CmdPhase) (n : PointNo) :
    u.waits p name ph n = s.waits p name ph n := by
  rw [Bool.eq_iff_iff, waits_iff, waits_iff, waitsIn_congr h]

theorem eq_otherPort_of_ne {q p : Port} (h : q ≠ p) : q = otherPort p := by
  cases p <;> cases q <;> simp_all [otherPort]

theorem isSharedWrite_iff : s.isSharedWrite g = true ↔ ∃ p, s.Owns g p .write := by
  simp only [isSharedWrite, Bool.or_eq_true, ownAccess_iff]
  refine ⟨fun h => h.elim (fun h => ⟨_, h⟩) fun h => ⟨_, h⟩, ?_⟩
  rintro ⟨_ | _, h⟩
  · exact .inl h
  · exact .inr h

theorem isSharedWrite_congr (h : ∀ p, u.port p = s.port p) : u.isSharedWrite g = s.isSharedWrite g := by
  rw [isSharedWrite, isSharedWrite, ownAccess_congr (h _), ownAccess_congr (h _)]

/-! #### A command goes on -/

theorem MovesTo.congr {ph : CmdPhase} (h : u.MovesTo t p ph) (hp : u.port p = s.port p) (ht : v.port p = t.port p) :
    s.MovesTo v p ph := by
  obtain ⟨c, hc, hport⟩ := h
  refine ⟨c, (busyWith_congr hp).symm.trans hc, ?_⟩
  rw [ht, hport, slot, slot, hp]

theorem movesTo_requestAccess {k : Command} (h : s.busyWith p = some k) (n : PointNo) (f : Bool) :
    s.MovesTo (s.requestAccess p n f) p .waitGrant :=
  (movesTo_enterPhase .waitGrant h).congr rfl (port_placeRequest _ _ n f p)

theorem WaitsIn.busy {name : CmdName} {ph : CmdPhase} (h : s.WaitsIn p name ph n) : ∃ k, s.busyWith p = some k := by
  obtain ⟨k, hk, -⟩ := h
  exact ⟨k, hk⟩

theorem port_setEntry (s : State) (r : Requester) (q : Option Request) (o : Port) : (s.setEntry r q).port o = s.port o := by
  rcases r with _ | (_ | _) <;> rfl

/-- What concerns one port's slot and entry leaves the other port. -/
theorem port_setPort_setEntry_other (u : State) (p : Port) (x : PortState) (q : Option Request) :
    ((u.setPort p x).setEntry (.slot p) q).port (otherPort p) = u.port (otherPort p) := by
  rw [port_setEntry, port_setPort_other _ (by cases p <;> decide)]

/-! #### Counted completions -/

/-- The command of port `p` completes with the access: its own, or the write it joined. -/
def Completes (s : State) (g : Grant) (shared : Bool) (p : Port) : Prop :=
  s.Owns g p .readNow ∨ s.Owns g p .write ∨ (shared = true ∧ s.WaitsIn p .write .waitWrite g.point)

theorem completes_iff : (s.ownAccess g p .readNow || s.ownAccess g p .write ||
    (shared && s.waits p .write .waitWrite g.point)) = true ↔ s.Completes g shared p := by
  simp only [Completes, Bool.or_eq_true, Bool.and_eq_true, ownAccess_iff, waits_iff, or_assoc]

theorem completes_congr (h : u.port p = s.port p) : u.Completes g shared p ↔ s.Completes g shared p := by
  rw [← completes_iff, ← completes_iff, ownAccess_congr h, ownAccess_congr h, waits_congr h]

/-- A counted completion leads the command of port `p` to a request of its own. -/
theorem afterCounted_of_completes (h : s.Completes g shared p) :
    afterCounted g o owed shared s p = s.completeSnapshot p (codeOf o) g.point := if_pos (completes_iff.mpr h)

theorem movesTo_afterCounted (h : ¬ s.Completes g shared p) (ha : s.countedAsk g.point owed p ≠ none) :
    s.MovesTo (afterCounted g o owed shared s p) p .waitGrant := by
  have hnot := mt completes_iff.mp h
  unfold afterCounted
  dsimp only
  rw [if_neg hnot]
  unfold countedAsk at ha
  by_cases hread : s.waits p .readNow .waitPoint g.point = true
  · rw [if_pos hread]
    obtain ⟨k, hk⟩ := ((s.waits_iff ..).mp hread).busy
    exact movesTo_requestAccess hk _ _
  · by_cases hwrite : (s.waits p .write .waitPoint g.point && owed) = true
    · rw [if_neg hread, if_pos hwrite]
      simp only [Bool.and_eq_true, waits_iff] at hwrite
      obtain ⟨k, hk⟩ := hwrite.1.busy
      exact movesTo_requestAccess hk _ _
    · rw [if_neg hread, if_neg hwrite] at ha
      exact absurd rfl ha

theorem afterCounted_of_other (h : ¬ s.Completes g shared p) (ha : s.countedAsk g.point owed p = none) :
    afterCounted g o owed shared s p = s := by
  have hnot := mt completes_iff.mp h
  unfold afterCounted
  dsimp only
  rw [if_neg hnot]
  unfold countedAsk at ha
  split_ifs at ha with hread hwrite
  rw [if_neg hread, if_neg hwrite]

theorem port_afterCounted_other (hb : u.bus.phase ≠ .idle) :
    (afterCounted g o owed shared u p).port (otherPort p) = u.port (otherPort p) := by
  obtain ⟨x, hx⟩ := afterCounted_eq (g := g) (o := o) (owed := owed) (shared := shared) (p := p) hb
  rw [hx, port_setPort_setEntry_other]

/-- The command that completes is not one that asks. -/
theorem Completes.countedAsk (h : s.Completes g shared p) : s.countedAsk g.point owed p = none := by
  obtain ⟨name, ph, hwaits, hph⟩ := waitsIn_of_completes (completes_iff.mpr h)
  exact countedAsk_eq_none hwaits hph

/-- What happens to the command of one port, in terms of the state the completion found. -/
theorem port_afterCounted (hp : u.port p = s.port p) :
    (s.Completes g shared p → (afterCounted g o owed shared u p).port p =
      { s.port p with slot := { state := .done, result := codeOf o, area := u.snapshot g.point } }) ∧
    (s.countedAsk g.point owed p ≠ none → s.MovesTo (afterCounted g o owed shared u p) p .waitGrant) ∧
    (¬ s.Completes g shared p → s.countedAsk g.point owed p = none →
      (afterCounted g o owed shared u p).port p = s.port p) := by
  have hcomp := completes_congr (g := g) (shared := shared) hp
  have hask := countedAsk_congr (n := g.point) (owed := owed) hp
  refine ⟨fun h => ?_, fun h => ?_, fun h ha => ?_⟩
  · rw [afterCounted_of_completes (hcomp.mpr h), completeSnapshot, complete_eq_setPort hp, port_setPort_self]
  · exact (movesTo_afterCounted (fun hc => h (hcomp.mp hc).countedAsk) (hask ▸ h)).congr hp rfl
  · rw [afterCounted_of_other (mt hcomp.mp h) (hask.trans ha), hp]

/-- Both ports, one after the other. -/
theorem port_afterCounted_both (hw : ∀ p, u.port p = s.port p) (hb : u.bus.phase ≠ .idle) (p : Port) :
    ∃ v, v.port p = s.port p ∧ v.snapshot g.point = u.snapshot g.point ∧
      (afterCounted g o owed shared (afterCounted g o owed shared u .primary) .maint).port p =
        (afterCounted g o owed shared v p).port p := by
  have hsnap : (afterCounted g o owed shared u .primary).snapshot g.point = u.snapshot g.point := by
    obtain ⟨x, hx⟩ := afterCounted_eq (g := g) (o := o) (owed := owed) (shared := shared) (p := .primary) hb
    rw [hx]
    exact snapshot_congr rfl rfl _
  have hphase : (afterCounted g o owed shared u .primary).bus.phase ≠ .idle := by
    obtain ⟨x, hx⟩ := afterCounted_eq (g := g) (o := o) (owed := owed) (shared := shared) (p := .primary) hb
    rw [hx]
    exact hb
  cases p with
  | primary => exact ⟨u, hw .primary, rfl, port_afterCounted_other (p := .maint) hphase⟩
  | maint => exact ⟨_, (port_afterCounted_other (p := .primary) hb).trans (hw .maint), hsnap, rfl⟩

end Sys2Proof.Machine.State

namespace Sys2Proof.Machine

/-- Settles O45: `afterCounted` on each port, and the engine as the completion leaves it. -/
theorem countedCompletionMovesTheCommands : Obligations.CountedCompletionMovesTheCommands := by
  intro g x s hx hc n own ends
  have ⟨⟨a, ha⟩, _⟩ := hx
  have hframe := s.afterJudging_frame n x
  have hports : ∀ p, (s.afterJudging n x).port p = s.port p := fun p => by rw [hframe]; rfl
  have hbus : (s.afterJudging n x).bus.phase ≠ .idle := by
    rw [hframe, ha]
    exact BusPhase.noConfusion
  obtain ⟨hfreed, -⟩ := hx.completionFrame
  obtain ⟨x', y', b, hdone⟩ := State.countCompletion_busIdle_eq (g := g) (c := x) hbus
  refine ⟨_, hx.exec_counted hc, hfreed, fun p => ?_⟩
  have hshared : s.Completes g ((s.afterJudging n x).isSharedWrite g) p ↔ ends p := by
    refine or_congr Iff.rfl (or_congr Iff.rfl (and_congr_left fun hw => ?_))
    rw [State.isSharedWrite_congr hports, State.isSharedWrite_iff]
    refine ⟨fun ⟨q, hq⟩ => ?_, fun hown => ⟨_, hown⟩⟩
    by_cases hpq : q = p
    · subst hpq
      obtain ⟨-, -, hwaits⟩ := hq
      exact absurd (hwaits.unique hw).2 (by decide)
    · rwa [State.eq_otherPort_of_ne hpq] at hq
  obtain ⟨v, hv, hsnap, hport⟩ := State.port_afterCounted_both (g := g) (o := x.outcome)
    (owed := (s.point n).writeAgain) (shared := (s.afterJudging n x).isSharedWrite g) hports hbus p
  have htport : (s.countCompletion g x).busIdle.port p = (State.afterCounted g x.outcome (s.point n).writeAgain
      ((s.afterJudging n x).isSharedWrite g) v p).port p := by
    obtain ⟨b', hb'⟩ := (s.countCompletion g x).busIdle_eq
    rw [hb', ← hport]
    rfl
  have htsnap : (s.countCompletion g x).busIdle.snapshot n = v.snapshot n := by
    rw [hdone]
    exact (State.snapshot_congr rfl rfl n).trans hsnap.symm
  obtain ⟨hcompletes, hasks, hrest⟩ := State.port_afterCounted (g := g) (o := x.outcome)
    (owed := (s.point n).writeAgain) (shared := (s.afterJudging n x).isSharedWrite g) hv
  have hcode : State.codeOf x.outcome = if x.outcome = .ok then .ok else .busFail := by cases x.outcome <;> rfl
  refine ⟨fun h => ?_, fun ⟨q, hq⟩ => ?_, fun h hq => ?_⟩
  · rw [htport, htsnap, ← hcode]
    exact hcompletes (hshared.mpr h)
  · refine (hasks ?_).congr rfl htport
    rw [State.countedAsk_eq_some_iff.mpr hq]
    exact Option.some_ne_none q
  · rw [htport]
    exact hrest (mt hshared.mp h) (Option.eq_none_iff_forall_ne_some.mpr fun q hs => hq q (State.countedAsk_eq_some_iff.mp hs))

end Sys2Proof.Machine

end

/-! ### Completions that are not counted (R12, R25, R46, R47, R84) -/

section

namespace Sys2Proof.Machine.State

variable {s u v t w : State} {g : Grant} {n m : PointNo} {p : Port} {owed : Bool} {o : Outcome} {name : CmdName}

/-! #### What concerns one port's slot and its entry alone -/

/-- From `s` to `t` nothing but the registers of port `p` and its slot's entry has changed. -/
def PortStep (s t : State) (p : Port) : Prop := ∃ x q, t = (s.setPort p x).setEntry (.slot p) q

theorem PortStep.port_other (h : s.PortStep t p) : t.port (otherPort p) = s.port (otherPort p) := by
  obtain ⟨x, q, rfl⟩ := h
  exact port_setPort_setEntry_other s p x q

theorem PortStep.entry_ne (h : s.PortStep t p) {r : Requester} (hr : r ≠ .slot p) : t.entry r = s.entry r := by
  obtain ⟨x, q, rfl⟩ := h
  rw [entry_setEntry_ne _ hr.symm]
  simp

theorem PortStep.frame (h : s.PortStep t p) : t = { s with
    primary := t.primary, maint := t.maint, bus := { s.bus with entries := t.bus.entries } } := by
  obtain ⟨x, q, rfl⟩ := h
  cases p <;> rfl

theorem PortStep.parts (h : s.PortStep t p) : ∃ x y e, t = { s with
    primary := x, maint := y, bus := { s.bus with entries := e } } := ⟨_, _, _, h.frame⟩

theorem PortStep.phase (h : s.PortStep t p) : t.bus.phase = s.bus.phase := by rw [h.frame]

theorem PortStep.snapshot (h : s.PortStep t p) (n : PointNo) : t.snapshot n = s.snapshot n := by
  rw [h.frame]
  exact snapshot_congr rfl rfl n

theorem portStep_refl (s : State) (p : Port) : s.PortStep s p := ⟨s.port p, s.entry (.slot p), by cases p <;> rfl⟩

theorem portStep_setPort (s : State) (p : Port) (x : PortState) : s.PortStep (s.setPort p x) p :=
  ⟨x, s.entry (.slot p), by cases p <;> rfl⟩

theorem portStep_enterPhase (s : State) (p : Port) (ph : CmdPhase) : s.PortStep (s.enterPhase p ph) p := by
  obtain ⟨x, hx⟩ := s.enterPhase_eq p ph
  exact hx ▸ s.portStep_setPort p x

theorem portStep_requestAccess (hb : s.bus.phase ≠ .idle) (p : Port) (n : PointNo) (f : Bool) :
    s.PortStep (s.requestAccess p n f) p := by
  obtain ⟨x, hx⟩ := s.enterPhase_eq p .waitGrant
  exact ⟨x, some ⟨n, f⟩, by rw [requestAccess_of_busy p n f hb, hx]⟩

theorem entry_requestAccess (hb : s.bus.phase ≠ .idle) (p : Port) (n : PointNo) (f : Bool) :
    (s.requestAccess p n f).entry (.slot p) = some ⟨n, f⟩ := by
  rw [requestAccess_of_busy p n f hb, entry_setEntry_self]

theorem entry_enterPhase (s : State) (p : Port) (ph : CmdPhase) (r : Requester) :
    (s.enterPhase p ph).entry r = s.entry r := by
  obtain ⟨x, hx⟩ := s.enterPhase_eq p ph
  rw [hx]
  simp

/-! #### The cases of a discarded completion -/

/-- A READ_NOW whose access is discarded (R42, R43). -/
def Redefines (s : State) (g : Grant) (p : Port) : Prop :=
  s.WaitsIn p .readNow .waitPoint g.point ∨ s.Owns g p .readNow

/-- The WRITE that set WRITE_AGAIN (R46). -/
def Owes (s : State) (g : Grant) (owed : Bool) (p : Port) : Prop := s.WaitsIn p .write .waitPoint g.point ∧ owed = true

theorem redefines_iff : (s.waits p .readNow .waitPoint g.point || s.ownAccess g p .readNow) = true ↔ s.Redefines g p := by
  rw [Bool.or_eq_true, waits_iff, ownAccess_iff, Redefines]

theorem owes_iff : (s.waits p .write .waitPoint g.point && owed) = true ↔ s.Owes g owed p := by
  rw [Bool.and_eq_true, waits_iff, Owes]

theorem Owns.waits (h : s.Owns g p name) : s.WaitsIn p name .waitAccess g.point := by
  obtain ⟨-, -, hw⟩ := h
  exact hw

/-- One command is in one course. -/
theorem Redefines.not_write {ph : CmdPhase} (h : s.Redefines g p) : ¬ s.WaitsIn p .write ph g.point := fun hw => by
  rcases h with h | h
  · exact absurd (h.unique hw).1 (by decide)
  · exact absurd (h.waits.unique hw).1 (by decide)

theorem Owns.not_owes (h : s.Owns g p name) : ¬ s.Owes g owed p := fun ⟨hw, _⟩ =>
  absurd (h.waits.unique hw).2 (by decide)

theorem afterDiscard_of_redefines (h : s.Redefines g p) :
    afterDiscard g owed s p = s.completeSnapshot p .redefined g.point := if_pos (redefines_iff.mpr h)

theorem afterDiscard_of_owes (h : s.Owes g owed p) : afterDiscard g owed s p = s.requestAccess p g.point true :=
  (if_neg (mt redefines_iff.mp fun hr => hr.not_write h.1)).trans (if_pos (owes_iff.mpr h))

theorem afterDiscard_of_owns (h : s.Owns g p .write) : afterDiscard g owed s p =
    if owed then s.enterPhase p .waitWrite else s.requestAccess p g.point true :=
  ((if_neg (mt redefines_iff.mp fun hr => hr.not_write h.waits)).trans (if_neg (mt owes_iff.mp h.not_owes))).trans
    (if_pos (ownAccess_iff.mpr h))

theorem afterDiscard_of_other (hr : ¬ s.Redefines g p) (ho : ¬ s.Owes g owed p) (hw : ¬ s.Owns g p .write) :
    afterDiscard g owed s p = s :=
  ((if_neg (mt redefines_iff.mp hr)).trans (if_neg (mt owes_iff.mp ho))).trans (if_neg (mt ownAccess_iff.mp hw))

theorem portStep_afterDiscard (hb : s.bus.phase ≠ .idle) (g : Grant) (owed : Bool) (p : Port) :
    s.PortStep (afterDiscard g owed s p) p := by
  by_cases hr : s.Redefines g p
  · rw [afterDiscard_of_redefines hr]
    exact s.portStep_setPort p _
  by_cases ho : s.Owes g owed p
  · rw [afterDiscard_of_owes ho]
    exact portStep_requestAccess hb p _ _
  by_cases hw : s.Owns g p .write
  · rw [afterDiscard_of_owns hw]
    split_ifs
    · exact s.portStep_enterPhase p _
    · exact portStep_requestAccess hb p _ _
  · rw [afterDiscard_of_other hr ho hw]
    exact s.portStep_refl p

theorem redefines_congr (h : u.port p = s.port p) : u.Redefines g p ↔ s.Redefines g p := by
  rw [Redefines, Redefines, Owns, Owns, waitsIn_congr h, waitsIn_congr h]

theorem owes_congr (h : u.port p = s.port p) : u.Owes g owed p ↔ s.Owes g owed p := by
  rw [Owes, Owes, waitsIn_congr h]

theorem owns_congr (h : u.port p = s.port p) : u.Owns g p name ↔ s.Owns g p name := by
  rw [Owns, Owns, waitsIn_congr h]

/-- What happens to the command of one port, in terms of the state the completion found. -/
theorem port_afterDiscard (hp : u.port p = s.port p) :
    (s.Redefines g p → (afterDiscard g owed u p).port p =
      { s.port p with slot := { state := .done, result := .redefined, area := u.snapshot g.point } }) ∧
    (s.Owes g owed p → s.MovesTo (afterDiscard g owed u p) p .waitGrant) ∧
    (s.Owns g p .write → s.MovesTo (afterDiscard g owed u p) p (if owed then .waitWrite else .waitGrant)) ∧
    (¬ s.Redefines g p → ¬ s.Owes g owed p → ¬ s.Owns g p .write → (afterDiscard g owed u p).port p = s.port p) := by
  refine ⟨fun h => ?_, fun h => ?_, fun h => ?_, fun hr ho hw => ?_⟩
  · rw [afterDiscard_of_redefines ((redefines_congr hp).mpr h), completeSnapshot, complete_eq_setPort hp,
      port_setPort_self]
  · rw [afterDiscard_of_owes ((owes_congr hp).mpr h)]
    obtain ⟨k, hk⟩ := h.1.busy
    exact (movesTo_requestAccess ((busyWith_congr hp).trans hk) _ _).congr hp rfl
  · rw [afterDiscard_of_owns ((owns_congr hp).mpr h)]
    obtain ⟨k, hk⟩ := h.waits.busy
    cases owed with
    | true => exact (movesTo_enterPhase .waitWrite ((busyWith_congr hp).trans hk)).congr hp rfl
    | false => exact (movesTo_requestAccess ((busyWith_congr hp).trans hk) _ _).congr hp rfl
  · rw [afterDiscard_of_other (mt (redefines_congr hp).mp hr) (mt (owes_congr hp).mp ho) (mt (owns_congr hp).mp hw), hp]

/-- What its entry then holds. -/
theorem entry_afterDiscard (hp : u.port p = s.port p) (hb : u.bus.phase ≠ .idle) :
    ((s.Owes g owed p ∨ (s.Owns g p .write ∧ owed = false)) →
      (afterDiscard g owed u p).entry (.slot p) = some ⟨g.point, true⟩) ∧
    (¬ (s.Owes g owed p ∨ (s.Owns g p .write ∧ owed = false)) →
      (afterDiscard g owed u p).entry (.slot p) = u.entry (.slot p)) := by
  refine ⟨fun h => ?_, fun h => ?_⟩
  · rcases h with h | ⟨h, rfl⟩
    · rw [afterDiscard_of_owes ((owes_congr hp).mpr h), entry_requestAccess hb]
    · rw [afterDiscard_of_owns ((owns_congr hp).mpr h)]
      exact entry_requestAccess hb p _ _
  · obtain ⟨ho, hw⟩ := not_or.mp h
    by_cases hr : s.Redefines g p
    · rw [afterDiscard_of_redefines ((redefines_congr hp).mpr hr)]
      cases p <;> rfl
    by_cases hown : s.Owns g p .write
    · have howed : owed = true := by
        cases owed with
        | true => rfl
        | false => exact absurd ⟨hown, rfl⟩ hw
      rw [afterDiscard_of_owns ((owns_congr hp).mpr hown), howed, if_pos rfl, entry_enterPhase]
    · rw [afterDiscard_of_other (mt (redefines_congr hp).mp hr) (mt (owes_congr hp).mp ho) (mt (owns_congr hp).mp hown)]

/-- The step of each port, taken one after the other, as it finds its own port and entry. -/
theorem afterDiscard_both (hb : u.bus.phase ≠ .idle) (g : Grant) (owed : Bool) (p : Port) :
    ∃ v, v.port p = u.port p ∧ v.snapshot g.point = u.snapshot g.point ∧ v.bus.phase ≠ .idle ∧
      v.entry (.slot p) = u.entry (.slot p) ∧
      (afterDiscard g owed (afterDiscard g owed u .primary) .maint).port p = (afterDiscard g owed v p).port p ∧
      (afterDiscard g owed (afterDiscard g owed u .primary) .maint).entry (.slot p) =
        (afterDiscard g owed v p).entry (.slot p) := by
  have hfirst := portStep_afterDiscard hb g owed .primary
  have hb' : (afterDiscard g owed u .primary).bus.phase ≠ .idle := hfirst.phase ▸ hb
  have hsecond := portStep_afterDiscard hb' g owed .maint
  cases p with
  | primary => exact ⟨u, rfl, rfl, hb, rfl, hsecond.port_other, hsecond.entry_ne (by simp)⟩
  | maint => exact ⟨_, hfirst.port_other, hfirst.snapshot _, hb', hfirst.entry_ne (by simp), rfl, rfl⟩

/-! #### Points that are RETIRING -/

theorem freePoint_of_causes_eq (h : (s.point n).causes = 0) :
    s.freePoint n = (s.returnSegments (s.point n).segments).setPoint n Point.free := by
  rw [freePoint, emptyCauses_of_causes_eq h]

theorem portStep_finishWaitFree (s : State) (n : PointNo) (p : Port) : s.PortStep (s.finishWaitFree n p) p := by
  by_cases h : ∀ c k, s.busyWith p = some c → c.phase ≠ .waitFree n k
  · rw [finishWaitFree_of_ne h]
    exact s.portStep_refl p
  · push Not at h
    obtain ⟨c, k, hc, hk⟩ := h
    rw [finishWaitFree_of_waits hc hk]
    exact s.portStep_setPort p _

theorem clearAllArea_one (k : Nat) :
    clearAllArea k 1 = resultArea fun i => if i = 0 then place 0 k else if i = 1 then 1 else 0 := by
  refine congrArg resultArea (funext fun i => ?_)
  match i with
  | 0 => rfl
  | 1 => rfl
  | i + 2 => rfl

/-- The command of one port that waits for the point completes, and any other stays (R37, R38). -/
theorem port_finishWaitFree (hp : u.port p = s.port p) :
    (∀ c k, s.busyWith p = some c → c.phase = .waitFree n k → (u.finishWaitFree n p).port p =
      { s.port p with slot := {
        state := .done, result := .ok
        area := if CmdName.ofCode c.code = .clearAll then
            resultArea fun i => if i = 0 then place 0 k else if i = 1 then 1 else 0
          else zeroArea } }) ∧
    ((∀ c k, s.busyWith p = some c → c.phase ≠ .waitFree n k) → (u.finishWaitFree n p).port p = s.port p) := by
  have hbusy := busyWith_congr hp
  refine ⟨fun c k hc hk => ?_, fun h => ?_⟩
  · rw [finishWaitFree_of_waits (hbusy.trans hc) hk, complete_eq_setPort hp, port_setPort_self, clearAllArea_one]
  · rw [finishWaitFree_of_ne fun c k hc => h c k (hbusy.symm.trans hc), hp]

/-- Both ports, one after the other, as the first step leaves the second its own. -/
theorem port_finishWaitFree_both (u : State) (n : PointNo) (p : Port) : ∃ v : State, v.port p = u.port p ∧
    ((u.finishWaitFree n .primary).finishWaitFree n .maint).port p = (v.finishWaitFree n p).port p := by
  have hfirst := u.portStep_finishWaitFree n .primary
  have hsecond := (u.finishWaitFree n .primary).portStep_finishWaitFree n .maint
  cases p with
  | primary => exact ⟨u, rfl, hsecond.port_other⟩
  | maint => exact ⟨_, hfirst.port_other, rfl⟩

theorem finishWaitFree_slots (s : State) (n : PointNo) (p : Port) :
    ∃ x y, s.finishWaitFree n p = { s with primary := x, maint := y } := by
  by_cases h : ∀ c k, s.busyWith p = some c → c.phase ≠ .waitFree n k
  · exact ⟨s.primary, s.maint, finishWaitFree_of_ne h⟩
  · push Not at h
    obtain ⟨c, k, hc, hk⟩ := h
    rw [finishWaitFree_of_waits hc hk]
    exact s.complete_slots p _ _

theorem NextCompletion.exec_retiring {x : Completion} (h : s.NextCompletion g x) (hr : (s.point g.point).state = .retiring) :
    exec .accessCompletion s = .next (s.completeRetiring g.point).busIdle := by
  obtain ⟨⟨a, ha⟩, hl⟩ := h
  rw [exec_accessCompletion]
  simp [execAccessCompletion, ha, hl, done, takeCompletion, hr]

theorem NextCompletion.exec_discarded {x : Completion} (h : s.NextCompletion g x)
    (hd : (s.point g.point).state.isDefined = true) (hr : (s.point g.point).redefined = true) :
    exec .accessCompletion s = .next (s.discardCompletion g).busIdle := by
  obtain ⟨⟨a, ha⟩, hl⟩ := h
  have hret : (s.point g.point).state ≠ .retiring := fun e => by simp [e, Health.isDefined] at hd
  rw [exec_accessCompletion]
  simp [execAccessCompletion, ha, hl, done, takeCompletion, hret, hr]

end Sys2Proof.Machine.State

namespace Sys2Proof.Machine

/-- Settles O40: a RETIRING point, then a redefined one. -/
theorem uncountedCompletionsAreDiscarded : Obligations.UncountedCompletionsAreDiscarded := by
  intro g x s hx n r
  refine ⟨fun hret hcauses hasc => ?retiring, fun hdef hred => ?discarded⟩
  case retiring =>
    have hfree := State.freePoint_of_causes_eq (s := s) (n := n) hcauses
    obtain ⟨x₁, y₁, h₁⟩ := (s.freePoint n).finishWaitFree_slots n .primary
    obtain ⟨x₂, y₂, h₂⟩ := ((s.freePoint n).finishWaitFree n .primary).finishWaitFree_slots n .maint
    have hcore : s.completeRetiring n = { (s.returnSegments r.segments).setPoint n Point.free with
        primary := x₂, maint := y₂ } := by
      rw [State.completeRetiring, h₂, h₁, hfree]
    obtain ⟨b, hb⟩ := (s.completeRetiring n).busIdle_eq
    have hports : ∀ p, (s.freePoint n).port p = s.port p := fun p => by rw [hfree]; rfl
    have hport : ∀ p, ∃ v : State, v.port p = s.port p ∧
        (s.completeRetiring n).busIdle.port p = (v.finishWaitFree n p).port p := fun p => by
      obtain ⟨v, hv, hboth⟩ := (s.freePoint n).port_finishWaitFree_both n p
      exact ⟨v, hv.trans (hports p), (by rw [hb]; rfl : _ = (s.completeRetiring n).port p).trans hboth⟩
    refine ⟨_, hx.exec_retiring hret, ?point, fun m hm => ?others, ?segs, fun p c k hc hk => ?finishes,
      fun p hp => ?stays, ⟨s.completeRetiring n, by rw [hcore]; rfl, by rw [hcore]; rfl, fun _ _ h => h.elim,
        fun p _ => by rw [hcore]; rfl, rfl⟩, ?frame⟩
    case point =>
      rw [hb, hcore]
      exact State.point_setPoint_self _ n _
    case others =>
      rw [hb, hcore]
      exact State.point_setPoint_ne _ hm.symm _
    case segs =>
      rw [hb, hcore]
      exact State.returned_returnSegments hasc r.segments
    case finishes =>
      obtain ⟨v, hv, hdone⟩ := hport p
      exact hdone.trans ((State.port_finishWaitFree hv).1 c k hc hk)
    case stays =>
      obtain ⟨v, hv, hdone⟩ := hport p
      exact hdone.trans ((State.port_finishWaitFree hv).2 hp)
    case frame =>
      rw [hb, hcore]
      rfl
  case discarded =>
    intro own redefines owes
    have ⟨⟨a, ha⟩, _⟩ := hx
    generalize hw : s.setPoint n { r with inFlight := .none, redefined := false, writeAgain := false } = w
    have hcore : s.discardCompletion g =
        State.afterDiscard g r.writeAgain (State.afterDiscard g r.writeAgain w .primary) .maint := by
      rw [← hw]
      rfl
    have hports : ∀ p, w.port p = s.port p := fun p => by rw [← hw]; rfl
    have hentries : ∀ q, w.entry q = s.entry q := fun q => by rw [← hw]; rfl
    have hbus : w.bus = s.bus := by rw [← hw]; rfl
    have hphase : w.bus.phase ≠ .idle := by
      rw [hbus, ha]
      exact BusPhase.noConfusion
    have hfirst := State.portStep_afterDiscard hphase g r.writeAgain .primary
    have hsecond := State.portStep_afterDiscard (hfirst.phase ▸ hphase) g r.writeAgain .maint
    obtain ⟨b, hb⟩ := (s.discardCompletion g).busIdle_eq
    obtain ⟨x₁, y₁, e₁, h₁⟩ := hfirst.parts
    obtain ⟨x₂, y₂, e₂, h₂⟩ := hsecond.parts
    have hframe : s.discardCompletion g = { w with primary := x₂, maint := y₂, bus := { w.bus with entries := e₂ } } := by
      rw [hcore, h₂, h₁]
    have hboth : ∀ p, ∃ v : State, v.port p = s.port p ∧ v.snapshot n = (s.discardCompletion g).busIdle.snapshot n ∧
        v.bus.phase ≠ .idle ∧ v.entry (.slot p) = s.entry (.slot p) ∧
        (s.discardCompletion g).busIdle.port p = (State.afterDiscard g r.writeAgain v p).port p ∧
        (s.discardCompletion g).entry (.slot p) = (State.afterDiscard g r.writeAgain v p).entry (.slot p) := fun p => by
      obtain ⟨v, hv, hsnap, hvphase, hventry, hport, hentry⟩ := State.afterDiscard_both hphase g r.writeAgain p
      refine ⟨v, hv.trans (hports p), hsnap.trans ?_, hvphase, hventry.trans (hentries _), ?_, ?_⟩
      · rw [hb, hframe]
        exact State.snapshot_congr rfl rfl n
      · rw [← hport, hb, hcore]
        rfl
      · rw [← hentry, hcore]
    have hscan : (s.discardCompletion g).entry .scan = s.entry .scan := by
      rw [hcore, hsecond.entry_ne (by simp), hfirst.entry_ne (by simp), hentries]
    refine ⟨_, hx.exec_discarded hdef hred, ?point, fun m hm => ?others, fun p => ?commands,
      ⟨s.discardCompletion g, by rw [hframe, hbus], hscan, fun p q hq => ?asks,
        fun p hp => ?keeps, rfl⟩, ?frame⟩
    case point =>
      rw [hb, hframe, ← hw]
      exact s.point_setPoint_self n _
    case others =>
      rw [hb, hframe, ← hw]
      exact s.point_setPoint_ne hm.symm _
    case commands =>
      obtain ⟨v, hv, hsnap, -, -, hport, -⟩ := hboth p
      obtain ⟨hredefines, howes, howns, hrest⟩ := State.port_afterDiscard (g := g) (owed := r.writeAgain) hv
      refine ⟨fun h => ?_, fun h => (howes h).congr rfl hport, fun h => (howns h).congr rfl hport,
        fun hr ho hw => hport.trans (hrest hr ho hw)⟩
      rw [hport, ← hsnap]
      exact hredefines h
    case asks =>
      obtain ⟨rfl, hasks⟩ := hq
      obtain ⟨v, hv, -, hvphase, -, -, hentry⟩ := hboth p
      exact hentry.trans ((State.entry_afterDiscard hv hvphase).1 hasks)
    case keeps =>
      obtain ⟨v, hv, -, hvphase, hventry, -, hentry⟩ := hboth p
      exact (hentry.trans ((State.entry_afterDiscard hv hvphase).2 fun h => hp _ ⟨rfl, h⟩)).trans hventry
    case frame =>
      rw [hb, hframe, ← hw]
      rfl

end Sys2Proof.Machine

end

/-! ### Class timers and timebase (R56 to R59) -/

section

namespace Sys2Proof.Machine

namespace State

variable {s t u : State} {c k : ClassNo} {n m : Nat}

/-! #### Expiries (R57 to R59) -/

theorem takeExpiry_of_inPass (h : (s.classState c).inPass = true) : s.takeExpiry c = s.setClassState c { s.classState c with
    remaining := (s.classState c).period, overrun := true, overrunCount := min 255 ((s.classState c).overrunCount + 1) } :=
  if_pos h

theorem takeExpiry_of_empty (h : (s.classState c).inPass = false) (hh : (s.chain (some c)).head = none) :
    s.takeExpiry c = s.setClassState c { s.classState c with remaining := (s.classState c).period } := by
  have hout : ¬ (s.classState c).inPass = true := by simp [h]
  unfold takeExpiry
  rw [hh]
  exact if_neg hout

theorem takeExpiry_of_head {p : PointNo} (h : (s.classState c).inPass = false) (hh : (s.chain (some c)).head = some p) :
    s.takeExpiry c = s.setClassState c { s.classState c with
      remaining := (s.classState c).period, inPass := true, cursor := some p } := by
  have hout : ¬ (s.classState c).inPass = true := by simp [h]
  unfold takeExpiry
  rw [hh]
  exact if_neg hout

theorem timerRuns_iff : s.timerRuns c = true ↔ s.scan.run = true ∧ (s.classState c).period ≠ 0 ∧ s.loading = false := by
  simp [timerRuns, and_assoc]

theorem exec_classTimerExpiry (hr : s.scan.run = true) (hl : s.loading = false) (hp : (s.classState c).period ≠ 0)
    (hz : (s.classState c).remaining = 0) : exec (.classTimerExpiry c) s = .next (s.takeExpiry c) := by
  have hdue : s.expiryDue c = true := by
    rw [expiryDue, timerRuns_iff.mpr ⟨hr, hp, hl⟩, hz]
    rfl
  exact if_pos hdue

end State

/-- Settles O46: the three cases of `takeExpiry`. -/
theorem expiryStartsAPassOrCountsAnOverrun : Obligations.ExpiryStartsAPassOrCountsAnOverrun := by
  intro c s hr hl x hp hz
  obtain ⟨y, hy⟩ := s.takeExpiry_eq c
  refine ⟨_, State.exec_classTimerExpiry hr hl hp hz, fun hi hh => ?empty, fun h hi hh => ?starts, fun hi => ?overrun,
    fun k hk => ?others, ?frame⟩
  case empty =>
    rw [State.takeExpiry_of_empty hi hh]
    exact s.classState_setClassState_self c _
  case starts =>
    rw [State.takeExpiry_of_head hi hh]
    exact s.classState_setClassState_self c _
  case overrun =>
    rw [State.takeExpiry_of_inPass hi]
    exact s.classState_setClassState_self c _
  case others =>
    rw [hy]
    exact s.classState_setClassState_ne hk.symm y
  case frame =>
    rw [hy]
    rfl

end Sys2Proof.Machine

end

/-! ### The timebase (R56, R57) -/

section

namespace Sys2Proof.Machine

namespace State

variable {s t u : State} {c k : ClassNo} {n m : Nat}

/-! #### What one period counts -/

/-- The phase of the engine with this many periods and ticks added to the counts of its running beat. -/
def countedPhase (p : BusPhase) (clks ticks : Nat) : BusPhase :=
  match p with
  | .running g a => .running g { a with clks := a.clks + clks, ticks := a.ticks + ticks }
  | .idle => .idle
  | .granted g => .granted g
  | .reporting g a x => .reporting g a x

theorem countedPhase_zero (p : BusPhase) : countedPhase p 0 0 = p := by cases p <;> rfl

theorem countedPhase_countedPhase (p : BusPhase) (i j i' j' : Nat) :
    countedPhase (countedPhase p i j) i' j' = countedPhase p (i + i') (j + j') := by
  cases p with
  | running g a => simp only [countedPhase, Nat.add_assoc]
  | idle | granted | reporting => rfl

theorem mapAccess_clks (s : State) : s.mapAccess (fun a => { a with clks := a.clks + 1 }) =
    { s with bus := { s.bus with phase := countedPhase s.bus.phase 1 0 } } := by
  cases hp : s.bus.phase with
  | running g a =>
    rw [mapAccess_of_running _ hp]
    rfl
  | idle | granted | reporting =>
    rw [mapAccess_of_ne _ (by simp [hp]), countedPhase, ← hp]

theorem mapAccess_ticks (s : State) : s.mapAccess (fun a => { a with ticks := a.ticks + 1 }) =
    { s with bus := { s.bus with phase := countedPhase s.bus.phase 0 1 } } := by
  cases hp : s.bus.phase with
  | running g a =>
    rw [mapAccess_of_running _ hp]
    rfl
  | idle | granted | reporting =>
    rw [mapAccess_of_ne _ (by simp [hp]), countedPhase, ← hp]

theorem clkPeriod_of_short (h : s.timebase.clk + 1 < 25) : s.clkPeriod = { s with
    timebase := { s.timebase with clk := s.timebase.clk + 1 }
    bus := { s.bus with phase := countedPhase s.bus.phase 1 0 } } := by
  unfold clkPeriod
  rw [mapAccess_clks]
  exact if_pos h

/-- The state of a period that is a 1 µs tick, its class timers not yet counted. -/
def ticked (s : State) (us : Nat) : State := { s with
  timebase := { s.timebase with clk := 0, us := us }
  bus := { s.bus with phase := countedPhase s.bus.phase 1 1 } }

theorem clkPeriod_of_tick (h : ¬ s.timebase.clk + 1 < 25) (hu : s.timebase.us + 1 < 1000) :
    s.clkPeriod = s.ticked (s.timebase.us + 1) := by
  unfold clkPeriod
  rw [mapAccess_clks]
  refine (if_neg h).trans ?_
  unfold microsecondTick
  rw [mapAccess_ticks]
  refine (if_pos hu).trans ?_
  unfold ticked
  rw [countedPhase_countedPhase]

theorem clkPeriod_of_millisecond (h : ¬ s.timebase.clk + 1 < 25) (hu : ¬ s.timebase.us + 1 < 1000) :
    s.clkPeriod = (s.ticked 0).millisecondTick := by
  unfold clkPeriod
  rw [mapAccess_clks]
  refine (if_neg h).trans ?_
  unfold microsecondTick
  rw [mapAccess_ticks]
  refine (if_neg hu).trans ?_
  unfold ticked
  rw [countedPhase_countedPhase]

/-- The counts after a period, and the classes where it is not a 1 ms tick. -/
theorem clkPeriod_counts (s : State) :
    s.clkPeriod.timebase.clk = (if s.timebase.clk + 1 < 25 then s.timebase.clk + 1 else 0) ∧
    s.clkPeriod.timebase.us = (if s.timebase.clk + 1 < 25 then s.timebase.us
      else if s.timebase.us + 1 < 1000 then s.timebase.us + 1 else 0) ∧
    s.clkPeriod.bus.phase = countedPhase s.bus.phase 1 (if s.timebase.clk + 1 < 25 then 0 else 1) := by
  by_cases h : s.timebase.clk + 1 < 25
  · rw [clkPeriod_of_short h, if_pos h, if_pos h, if_pos h]
    exact ⟨rfl, rfl, rfl⟩
  · rw [if_neg h, if_neg h, if_neg h]
    by_cases hu : s.timebase.us + 1 < 1000
    · rw [clkPeriod_of_tick h hu, if_pos hu]
      exact ⟨rfl, rfl, rfl⟩
    · rw [clkPeriod_of_millisecond h hu, if_neg hu]
      have hclasses := (s.ticked 0).classesOnly_millisecondTick
      unfold ClassesOnly at hclasses
      rw [hclasses]
      exact ⟨rfl, rfl, rfl⟩

/-! #### The class timers -/

theorem classState_takeExpiry_ne (h : k ≠ c) : (s.takeExpiry k).classState c = s.classState c := by
  obtain ⟨x, hx⟩ := s.takeExpiry_eq k
  rw [hx, classState_setClassState_ne _ h]

theorem classState_countDown_ne (h : k ≠ c) : (s.countDown k).classState c = s.classState c := by
  unfold countDown
  dsimp only
  split_ifs
  · rw [classState_setClassState_ne _ h, classState_takeExpiry_ne h]
  · rw [classState_setClassState_ne _ h]
  · rfl

theorem countDown_of_not_runs (h : s.timerRuns c = false) : s.countDown c = s := by
  have hout : ¬ s.timerRuns c = true := by simp [h]
  exact if_neg hout

theorem countDown_of_runs (h : s.timerRuns c = true) (hz : (s.classState c).remaining ≠ 0) : s.countDown c =
    s.setClassState c { s.classState c with remaining := (s.classState c).remaining - 1 } := by
  have hdue : ¬ s.expiryDue c = true := fun hd => hz (by simpa [expiryDue, h] using hd)
  unfold countDown
  rw [if_pos h]
  dsimp only
  rw [if_neg hdue]

theorem countDown_of_due (h : s.timerRuns c = true) (hz : (s.classState c).remaining = 0) : s.countDown c =
    (s.takeExpiry c).setClassState c { (s.takeExpiry c).classState c with
      remaining := ((s.takeExpiry c).classState c).remaining - 1 } := by
  have hdue : s.expiryDue c = true := by simp [expiryDue, h, hz]
  unfold countDown
  rw [if_pos h]
  dsimp only
  rw [if_pos hdue]

/-- From `s` to `t` nothing the timer of class `c` looks at has changed. -/
def SameTimer (s t : State) (c : ClassNo) : Prop :=
  t.classState c = s.classState c ∧ (∀ x, t.chain x = s.chain x) ∧ t.scan.run = s.scan.run ∧ t.loading = s.loading

theorem ClassesOnly.sameTimer (h : s.ClassesOnly t) (hc : t.classState c = s.classState c) : s.SameTimer t c := by
  refine ⟨hc, ?_⟩
  rw [h]
  exact ⟨fun _ => rfl, rfl, rfl⟩

theorem sameTimer_ticked (s : State) (us : Nat) (c : ClassNo) : s.SameTimer (s.ticked us) c :=
  ⟨rfl, fun _ => rfl, rfl, rfl⟩

theorem SameTimer.trans (h : s.SameTimer t c) (h' : t.SameTimer u c) : s.SameTimer u c := by
  obtain ⟨hc, hch, hr, hl⟩ := h
  obtain ⟨hc', hch', hr', hl'⟩ := h'
  exact ⟨hc'.trans hc, fun x => (hch' x).trans (hch x), hr'.trans hr, hl'.trans hl⟩

theorem SameTimer.runs (h : s.SameTimer t c) : t.timerRuns c = s.timerRuns c := by
  obtain ⟨hc, -, hr, hl⟩ := h
  rw [timerRuns, timerRuns, hc, hr, hl]

theorem SameTimer.takeExpiry (h : s.SameTimer t c) : (t.takeExpiry c).classState c = (s.takeExpiry c).classState c := by
  obtain ⟨hc, hch, -⟩ := h
  cases hi : (s.classState c).inPass with
  | true => rw [takeExpiry_of_inPass hi, takeExpiry_of_inPass (hc ▸ hi), hc]; simp
  | false =>
    cases hh : (s.chain (some c)).head with
    | none => rw [takeExpiry_of_empty hi hh, takeExpiry_of_empty (hc ▸ hi) (hch _ ▸ hh), hc]; simp
    | some p => rw [takeExpiry_of_head hi hh, takeExpiry_of_head (hc ▸ hi) (hch _ ▸ hh), hc]; simp

theorem SameTimer.countDown (h : s.SameTimer t c) : (t.countDown c).classState c = (s.countDown c).classState c := by
  have hc := h.1
  cases hr : s.timerRuns c with
  | false => rw [countDown_of_not_runs hr, countDown_of_not_runs (h.runs.trans hr), hc]
  | true =>
    by_cases hz : (s.classState c).remaining = 0
    · rw [countDown_of_due hr hz, countDown_of_due (h.runs.trans hr) (hc ▸ hz)]
      simp [h.takeExpiry]
    · rw [countDown_of_runs hr hz, countDown_of_runs (h.runs.trans hr) (hc ▸ hz)]
      simp [hc]

theorem sameTimer_countDown (h : k ≠ c) : s.SameTimer (s.countDown k) c :=
  (s.classesOnly_countDown k).sameTimer (classState_countDown_ne h)

/-- On a 1 ms tick each class counts by itself. -/
theorem classState_millisecondTick (s : State) (c : ClassNo) :
    s.millisecondTick.classState c = (s.countDown c).classState c := by
  unfold millisecondTick
  fin_cases c
  · rw [classState_countDown_ne (by decide), classState_countDown_ne (by decide), classState_countDown_ne (by decide)]
    rfl
  · rw [classState_countDown_ne (by decide), classState_countDown_ne (by decide)]
    exact (sameTimer_countDown (by decide)).countDown
  · rw [classState_countDown_ne (by decide)]
    exact ((sameTimer_countDown (by decide)).trans (sameTimer_countDown (by decide))).countDown
  · exact (((sameTimer_countDown (by decide)).trans (sameTimer_countDown (by decide))).trans
      (sameTimer_countDown (by decide))).countDown

theorem SameTimer.millisecondTick (h : s.SameTimer t c) :
    t.millisecondTick.classState c = (s.countDown c).classState c := by
  rw [classState_millisecondTick]
  exact h.countDown

/-- A timer that does not run keeps its class. -/
theorem sameTimer_clkPeriod (h : s.timerRuns c = false) : s.SameTimer s.clkPeriod c := by
  by_cases hs : s.timebase.clk + 1 < 25
  · rw [clkPeriod_of_short hs]
    exact ⟨rfl, fun _ => rfl, rfl, rfl⟩
  by_cases hu : s.timebase.us + 1 < 1000
  · rw [clkPeriod_of_tick hs hu]
    exact s.sameTimer_ticked _ c
  · rw [clkPeriod_of_millisecond hs hu]
    have hticked := s.sameTimer_ticked 0 c
    refine hticked.trans (ClassesOnly.sameTimer (classesOnly_millisecondTick _) ?_)
    rw [hticked.millisecondTick, countDown_of_not_runs h, hticked.1]

theorem classState_runClk_of_not_runs (n : Nat) (h : s.timerRuns c = false) :
    (runClk n s).classState c = s.classState c := by
  induction n generalizing s with
  | zero => rfl
  | succ n ih =>
    have hsame := sameTimer_clkPeriod h
    exact (ih (hsame.runs.trans h)).trans hsame.1

/-! #### Many periods -/

/-- The count of periods after `n` of them: one that stands at 24 or above starts again. -/
def clkAfter (clk n : Nat) : Nat := if n = 0 then clk else (min clk 24 + n) % 25

/-- The 1 µs ticks among `n` periods. -/
def ticksIn (clk n : Nat) : Nat := if n = 0 then 0 else (min clk 24 + n) / 25

/-- The count of ticks after this many more. -/
def usAfter (us ticks : Nat) : Nat := if ticks = 0 then us else (min us 999 + ticks) % 1000

theorem clkAfter_of_le {clk : Nat} (h : clk ≤ 24) (n : Nat) : clkAfter clk n = (clk + n) % 25 := by
  unfold clkAfter
  rw [min_eq_left h]
  split_ifs <;> omega

theorem ticksIn_of_le {clk : Nat} (h : clk ≤ 24) (n : Nat) : ticksIn clk n = (clk + n) / 25 := by
  unfold ticksIn
  rw [min_eq_left h]
  split_ifs <;> omega

theorem usAfter_of_le {us : Nat} (h : us ≤ 999) (ticks : Nat) : usAfter us ticks = (us + ticks) % 1000 := by
  unfold usAfter
  rw [min_eq_left h]
  split_ifs <;> omega

theorem clkAfter_succ (clk n : Nat) : clkAfter (if clk + 1 < 25 then clk + 1 else 0) n = clkAfter clk (n + 1) := by
  split_ifs with h
  · rw [clkAfter_of_le (by omega), clkAfter_of_le (by omega)]
    omega
  · rw [clkAfter_of_le (by omega), clkAfter, if_neg (by omega), min_eq_right (by omega)]
    omega

theorem ticksIn_succ (clk n : Nat) : (if clk + 1 < 25 then 0 else 1) + ticksIn (if clk + 1 < 25 then clk + 1 else 0) n =
    ticksIn clk (n + 1) := by
  split_ifs with h
  · rw [ticksIn_of_le (by omega), ticksIn_of_le (by omega)]
    omega
  · rw [ticksIn_of_le (by omega), ticksIn, if_neg (by omega), min_eq_right (by omega)]
    omega

theorem usAfter_succ (us ticks : Nat) : usAfter (if us + 1 < 1000 then us + 1 else 0) ticks = usAfter us (1 + ticks) := by
  split_ifs with h
  · rw [usAfter_of_le (by omega), usAfter_of_le (by omega)]
    omega
  · rw [usAfter_of_le (by omega), usAfter, if_neg (by omega), min_eq_right (by omega)]
    omega

theorem runClk_counts (n : Nat) (s : State) :
    (runClk n s).timebase.clk = clkAfter s.timebase.clk n ∧
    (runClk n s).timebase.us = usAfter s.timebase.us (ticksIn s.timebase.clk n) ∧
    (runClk n s).bus.phase = countedPhase s.bus.phase n (ticksIn s.timebase.clk n) := by
  induction n generalizing s with
  | zero => exact ⟨rfl, rfl, (countedPhase_zero _).symm⟩
  | succ n ih =>
    obtain ⟨hclk, hus, hphase⟩ := s.clkPeriod_counts
    obtain ⟨ihclk, ihus, ihphase⟩ := ih s.clkPeriod
    refine ⟨ihclk.trans ?_, ihus.trans ?_, ihphase.trans ?_⟩
    · rw [hclk, clkAfter_succ]
    · rw [hclk, hus, ← ticksIn_succ]
      by_cases hs : s.timebase.clk + 1 < 25
      · rw [if_pos hs, if_pos hs, if_pos hs, Nat.zero_add]
      · rw [if_neg hs, if_neg hs, if_neg hs]
        exact usAfter_succ _ _
    · rw [hclk, hphase, countedPhase_countedPhase, ticksIn_succ, Nat.add_comm 1 n]

theorem runClk_add (m n : Nat) (s : State) : runClk (m + n) s = runClk n (runClk m s) := by
  induction m generalizing s with
  | zero => rw [Nat.zero_add]; rfl
  | succ m ih =>
    rw [Nat.succ_add]
    exact ih s.clkPeriod

end State

/-- Settles O47: the counts by induction on the periods, and the class timers of a single one. -/
theorem timebaseCountsPeriods : Obligations.TimebaseCountsPeriods := by
  refine ⟨fun n s => ⟨_, rfl, ?many⟩, fun m n s u hu => ?split, fun s => ⟨_, rfl, ?one⟩⟩
  case many =>
    intro ticks
    obtain ⟨hclk, hus, hphase⟩ := State.runClk_counts n s
    refine ⟨hclk, hus, hphase.trans ?_, fun c hc => State.classState_runClk_of_not_runs n ?_, State.clockOnly_runClk n s⟩
    · unfold State.countedPhase
      cases s.bus.phase <;> rfl
    · rw [Bool.eq_false_iff, ne_eq, State.timerRuns_iff]
      rintro ⟨hr, hp, hl⟩
      rcases hc with hc | hc | hc
      · simp [hr] at hc
      · simp [hl] at hc
      · exact hp hc
  case split =>
    obtain rfl : State.runClk m s = u := Host.Outcome.next.inj hu
    exact congrArg Host.Outcome.next (State.runClk_add m n s)
  case one =>
    intro millisecond
    refine ⟨fun hm => ?_, fun c hm hr hl hp => ?_⟩
    · show s.clkPeriod.scan = s.scan
      by_cases hs : s.timebase.clk + 1 < 25
      · rw [State.clkPeriod_of_short hs]
      · rw [State.clkPeriod_of_tick hs (by simp only [millisecond] at hm; omega)]
        rfl
    · obtain ⟨hclk, hus⟩ := hm
      have hruns : s.timerRuns c = true := State.timerRuns_iff.mpr ⟨hr, hp, hl⟩
      have hcount : s.clkPeriod.classState c = (s.countDown c).classState c := by
        rw [State.clkPeriod_of_millisecond (by omega) (by omega)]
        exact (s.sameTimer_ticked 0 c).millisecondTick
      refine ⟨fun hz => ?_, fun hz hi => ?_, fun hz hi hh => ?_, fun h hz hi hh => ?_⟩
      · refine hcount.trans ?_
        rw [State.countDown_of_runs hruns hz]
        exact s.classState_setClassState_self c _
      · refine hcount.trans ?_
        rw [State.countDown_of_due hruns hz, State.takeExpiry_of_inPass hi]
        simp
      · refine hcount.trans ?_
        rw [State.countDown_of_due hruns hz, State.takeExpiry_of_empty hi hh]
        simp
      · refine hcount.trans ?_
        rw [State.countDown_of_due hruns hz, State.takeExpiry_of_head hi hh]
        simp

end Sys2Proof.Machine

end

/-! ### The scan engine's choice and its visits (R62, R63, R68 to R71) -/

section

namespace Sys2Proof.Machine

/-- The first index with a property is the lowest one that has it. -/
theorem find?_finRange_eq_some_iff {n : Nat} {f : Fin n → Bool} {i : Fin n} :
    (List.finRange n).find? f = some i ↔ f i = true ∧ ∀ j, j < i → f j = false := by
  rw [List.find?_eq_some_iff_getElem]
  refine and_congr_right fun _ => ⟨fun ⟨k, hk, hi, hbefore⟩ j hj => ?_, fun h => ⟨i.val, by simp, by simp, fun j hj => ?_⟩⟩
  · have hki : k = i.val := by simpa [Fin.ext_iff] using hi
    have hjk : j.val < k := hki ▸ hj
    simpa using hbefore j.val hjk
  · simpa using h ⟨j, by omega⟩ hj

theorem find?_finRange_eq_none_iff {n : Nat} {f : Fin n → Bool} :
    (List.finRange n).find? f = none ↔ ∀ j, f j = false := by simp

namespace State

variable {s t u : State} {r : RegionNo} {c : ClassNo} {n m : PointNo}

/-! #### The choice (R71) -/

theorem mayChoose_iff : s.mayChoose = true ↔ s.scan.req = .free ∧ s.scan.run = true ∧ s.loading = false := by
  simp [mayChoose, and_assoc]

theorem exec_scanChoose (h : s.mayChoose = true) : exec .scanChoose s = .next s.chooseWork := if_pos h

theorem exec_scanChoose_of_not (h : ¬ s.mayChoose = true) : exec .scanChoose s = .next s := if_neg h

theorem chooseWork_of_sweep (h : s.scan.sweep = some r) : s.chooseWork = s.placeVisit (.sweep r) := by
  unfold chooseWork
  rw [h]

theorem chooseWork_of_pending (h : s.scan.sweep = none) (hr : s.lowestPending = some r) :
    s.chooseWork = (s.startSweep r).placeVisit (.sweep r) := by
  unfold chooseWork
  rw [h]
  dsimp only
  rw [hr]

theorem chooseWork_of_pass (h : s.scan.sweep = none) (hr : s.lowestPending = none) (hc : s.lowestInPass = some c) :
    s.chooseWork = s.placeVisit (.pass c) := by
  unfold chooseWork
  rw [h]
  dsimp only
  rw [hr]
  dsimp only
  rw [hc]

theorem chooseWork_of_nothing (h : s.scan.sweep = none) (hr : s.lowestPending = none) (hc : s.lowestInPass = none) :
    s.chooseWork = s := by
  unfold chooseWork
  rw [h]
  dsimp only
  rw [hr]
  dsimp only
  rw [hc]

end State

/-- Settles O48: the branches of `chooseWork`. -/
theorem scanChoosesByPriority : Obligations.ScanChoosesByPriority := by
  refine ⟨fun s hreq hrun hl => ?chooses, fun s h => State.exec_scanChoose_of_not ?_⟩
  case chooses =>
    have hexec := State.exec_scanChoose (State.mayChoose_iff.mpr ⟨hreq, hrun, hl⟩)
    refine ⟨fun r hr => ?_, fun r hs hr hlow => ?_, fun c hs hp hc hlow => ?_, fun hs hp hc => ?_⟩
    · rw [hexec, State.chooseWork_of_sweep hr]
      rfl
    · rw [hexec, State.chooseWork_of_pending hs (find?_finRange_eq_some_iff.mpr ⟨hr, hlow⟩)]
      rfl
    · rw [hexec, State.chooseWork_of_pass hs (find?_finRange_eq_none_iff.mpr hp) (find?_finRange_eq_some_iff.mpr ⟨hc, hlow⟩)]
      rfl
    · rw [hexec, State.chooseWork_of_nothing hs (find?_finRange_eq_none_iff.mpr hp) (find?_finRange_eq_none_iff.mpr hc)]
  · rw [State.mayChoose_iff]
    rintro ⟨hreq, hrun, hl⟩
    rcases h with h | h | h
    · exact h hreq
    · simp [hrun] at h
    · simp [hl] at h

namespace State

variable {s t u : State} {r : RegionNo} {c : ClassNo} {n m : PointNo}

/-! #### The ruling (R62) -/

theorem rule_of_flight (h : (s.point n).inFlight ≠ .none) : s.rule n = s.scanFree := if_pos h

theorem rule_of_probe (h : (s.point n).inFlight = .none) (hf : (s.point n).state = .faulted) (hp : (s.point n).probe ≠ 0) :
    s.rule n = (s.setPoint n { s.point n with probe := (s.point n).probe - 1 }).scanFree :=
  (if_neg (not_not.mpr h)).trans (if_pos ⟨hf, hp⟩)

theorem rule_of_access (h : (s.point n).inFlight = .none) (hf : (s.point n).state ≠ .faulted ∨ (s.point n).probe = 0) :
    s.rule n = ({ s with scan := { s.scan with req := .requested } }).placeRequest .scan n false :=
  (if_neg (not_not.mpr h)).trans (if_neg fun ⟨hfault, hprobe⟩ => hf.elim (· hfault) hprobe)

theorem rule_frame (s : State) (n : PointNo) :
    ∃ ps b q, s.rule n = { s with points := ps, bus := b, scan := { s.scan with req := q } } := by
  by_cases hf : (s.point n).inFlight = .none
  · by_cases hp : (s.point n).state = .faulted ∧ (s.point n).probe ≠ 0
    · exact ⟨_, _, _, rule_of_probe hf hp.1 hp.2⟩
    · rw [rule_of_access hf (by tauto)]
      exact ⟨_, _, _, busOnly_placeRequest _ .scan n false⟩
  · exact ⟨_, _, _, rule_of_flight hf⟩

theorem point_placeRequest (s : State) (q : Requester) (n m : PointNo) (f : Bool) :
    (s.placeRequest q n f).point m = s.point m := by
  rw [s.busOnly_placeRequest q n f]
  rfl

theorem scan_placeRequest (s : State) (q : Requester) (n : PointNo) (f : Bool) : (s.placeRequest q n f).scan = s.scan := by
  rw [s.busOnly_placeRequest q n f]

/-- The ruling does what R62 says. -/
theorem ruled_rule (he : s.EngineAgrees) (n : PointNo) : s.Ruled (s.rule n) n := by
  refine ⟨fun m hm => ?others, fun hf => ?flight, fun hf hs hp => ?probe, fun hf hp => ?access⟩
  case others =>
    by_cases hf : (s.point n).inFlight = .none
    · by_cases hp : (s.point n).state = .faulted ∧ (s.point n).probe ≠ 0
      · rw [rule_of_probe hf hp.1 hp.2]
        exact s.point_setPoint_ne hm.symm _
      · rw [rule_of_access hf (by tauto), point_placeRequest]
        rfl
    · rw [rule_of_flight hf]
      rfl
  case flight =>
    rw [rule_of_flight hf]
    exact ⟨rfl, rfl, rfl⟩
  case probe =>
    rw [rule_of_probe hf hs hp]
    exact ⟨s.point_setPoint_self n _, rfl, rfl⟩
  case access =>
    rw [rule_of_access hf hp, point_placeRequest, scan_placeRequest]
    exact ⟨rfl, rfl, (placed_placeRequest (s := { s with scan := { s.scan with req := .requested } }) he .scan n false).congr
      rfl⟩

/-- What a ruling says of the state after it. -/
theorem Ruled.congr (h : s.Ruled t n) (hp : ∀ m, u.point m = t.point m) (hq : u.scan.req = t.scan.req) (hb : u.bus = t.bus) :
    s.Ruled u n := by
  unfold Ruled Placed entry at *
  simp only [hp, hq, hb]
  exact h

theorem next_rule (he : s.EngineAgrees) (n : PointNo) : ((s.rule n).point n).next = (s.point n).next := by
  obtain ⟨-, hflight, hprobe, haccess⟩ := s.ruled_rule he n
  by_cases hf : (s.point n).inFlight = .none
  · by_cases hp : (s.point n).state = .faulted ∧ (s.point n).probe ≠ 0
    · rw [(hprobe hf hp.1 hp.2).1]
    · rw [(haccess hf (by tauto)).1]
  · rw [(hflight hf).1]

/-! #### The visits (R63, R69) -/

theorem visitPass_of_end (h : (s.classState c).cursor = none) : s.visitPass c = s.scanFree := by
  unfold visitPass
  rw [h]

theorem visitPass_of_point (h : (s.classState c).cursor = some n) : s.visitPass c =
    (s.rule n).setClassState c { (s.rule n).classState c with
      inPass := ((s.rule n).point n).next.isSome, cursor := ((s.rule n).point n).next } := by
  unfold visitPass
  rw [h]

theorem visitSweep_of_end
    (h : (allPoints.find? fun n => decide (s.scan.sweepCursor ≤ n.val) && s.qualifies r n) = none) :
    s.visitSweep r = { s with scan := { s.scan with req := .free, sweep := none } } := by
  unfold visitSweep
  rw [h]
  rfl

theorem visitSweep_of_point
    (h : (allPoints.find? fun n => decide (s.scan.sweepCursor ≤ n.val) && s.qualifies r n) = some n) :
    s.visitSweep r = { s.rule n with scan := { (s.rule n).scan with
      sweepCursor := n.val + 1, sweep := if n.val = 255 then none else (s.rule n).scan.sweep } } := by
  unfold visitSweep
  rw [h]

theorem qualifies_iff : s.qualifies r n = true ↔ (s.point n).region = r ∧ (s.point n).attnRead = true ∧
    ((s.point n).kind = .input ∨ (s.point n).kind = .block) ∧ (s.point n).state.isDefined = true := by
  simp [qualifies, and_assoc]

end State

/-- Settles O49: the visits of a pass and of a sweep. -/
theorem visitRulesAndMovesTheCursor : Obligations.VisitRulesAndMovesTheCursor := by
  intro s hturn he qualifies
  have hagrees : ({ s with lastTaken := .scan } : State).EngineAgrees := he
  refine ⟨fun c n hreq hc => ?pass, fun c hreq hc => ?passEnd, fun r n hreq hq hn hlow => ?sweep, fun r hreq hnone => ?sweepEnd⟩
  case passEnd =>
    rw [State.exec_visit_of_turn hreq hturn]
    exact congrArg Host.Outcome.next (State.visitPass_of_end (s := { s with lastTaken := .scan }) hc)
  case pass =>
    have hexec := (State.exec_visit_of_turn hreq hturn).trans
      (congrArg Host.Outcome.next (State.visitPass_of_point (s := { s with lastTaken := .scan }) hc))
    have hruled : s.Ruled (({ s with lastTaken := .scan } : State).rule n) n := State.ruled_rule hagrees n
    have hnext : ((({ s with lastTaken := .scan } : State).rule n).point n).next = (s.point n).next :=
      State.next_rule hagrees n
    obtain ⟨ps, b, q, hframe⟩ := ({ s with lastTaken := .scan } : State).rule_frame n
    generalize ({ s with lastTaken := .scan } : State).rule n = u at *
    have hclass : ∀ k, u.classState k = s.classState k := fun k => by rw [hframe]; rfl
    refine ⟨_, hexec, hruled.congr (fun m => rfl) rfl rfl, ?_, fun k hk => ?_, ?_⟩
    · rw [State.classState_setClassState_self, hclass, hnext]
    · rw [State.classState_setClassState_ne _ hk.symm, hclass]
    · rw [hframe]
      rfl
  case sweep =>
    have hfind : (allPoints.find? fun m => decide (s.scan.sweepCursor ≤ m.val) && s.qualifies r m) = some n := by
      refine find?_finRange_eq_some_iff.mpr ⟨?_, fun m hm => ?_⟩
      · rw [Bool.and_eq_true, decide_eq_true_iff, State.qualifies_iff]
        exact ⟨hn, hq⟩
      · rw [Bool.eq_false_iff, ne_eq, Bool.and_eq_true, decide_eq_true_iff, State.qualifies_iff]
        exact fun ⟨hle, hqm⟩ => hlow m hm hle hqm
    have hexec := (State.exec_visit_of_turn hreq hturn).trans
      (congrArg Host.Outcome.next (State.visitSweep_of_point (s := { s with lastTaken := .scan }) hfind))
    have hruled : s.Ruled (({ s with lastTaken := .scan } : State).rule n) n := State.ruled_rule hagrees n
    obtain ⟨ps, b, q, hframe⟩ := ({ s with lastTaken := .scan } : State).rule_frame n
    generalize ({ s with lastTaken := .scan } : State).rule n = u at *
    refine ⟨_, hexec, hruled.congr (fun m => rfl) rfl rfl, rfl, ?_, ?_⟩
    · rw [hframe]
    · rw [hframe]
  case sweepEnd =>
    have hfind : (allPoints.find? fun m => decide (s.scan.sweepCursor ≤ m.val) && s.qualifies r m) = none := by
      refine find?_finRange_eq_none_iff.mpr fun m => ?_
      rw [Bool.eq_false_iff, ne_eq, Bool.and_eq_true, decide_eq_true_iff, State.qualifies_iff]
      exact fun ⟨hle, hqm⟩ => hnone m hle hqm
    rw [State.exec_visit_of_turn hreq hturn]
    exact congrArg Host.Outcome.next (State.visitSweep_of_end (s := { s with lastTaken := .scan }) hfind)

end Sys2Proof.Machine

end

/-! ### The attention unit (R140 to R147) and CLASS_STATE (R60) -/

section

namespace Sys2Proof.Machine

theorem Line.asserted_iff (x : Line) :
    x.asserted = true ↔ (x.mode = .high ∧ x.live = true) ∨ (x.mode = .low ∧ x.live = false) := by
  unfold Line.asserted
  cases x.mode <;> simp

theorem Line.matchesEdge_iff (x : Line) (high : Bool) :
    x.matchesEdge high = true ↔ (x.mode = .rise ∧ high = true) ∨ (x.mode = .fall ∧ high = false) := by
  unfold Line.matchesEdge
  cases x.mode <;> simp

/-- A level-mode line is asserted on one side of every change of its level (R143). -/
theorem Line.asserted_or_asserted {x : Line} {high : Bool} (hm : x.mode = .high ∨ x.mode = .low) (h : x.live ≠ high) :
    x.asserted = true ∨ ({ x with live := high } : Line).asserted = true := by
  rw [Line.asserted_iff, Line.asserted_iff]
  rcases hm with hm | hm <;> cases high <;> cases hl : x.live <;> simp_all

theorem Line.not_asserted {x : Line} (h : ¬ (x.mode = .high ∨ x.mode = .low)) : ¬ x.asserted = true := by
  rw [Line.asserted_iff]
  tauto

namespace State

variable {s t u : State} {l m : LineNo} {r : RegionNo} {high : Bool} {f : Byte} {x : Line}

/-! #### Pending flags -/

theorem pendingFlag_setPendingFlag (s : State) (q r : RegionNo) (b : Bool) :
    (s.setPendingFlag q b).pendingFlag r = if q = r then b else s.pendingFlag r := by
  unfold pendingFlag setPendingFlag
  by_cases h : q = r
  · subst h
    simp
  · simp [h, Fin.val_ne_of_ne h]

theorem keepFlag_of_asserted (h : (s.line l).asserted = true) :
    s.keepFlag l = s.setPendingFlag (s.line l).region true := if_pos h

theorem keepFlag_of_not_asserted (h : ¬ (s.line l).asserted = true) : s.keepFlag l = s := if_neg h

theorem line_keepFlag (s : State) (l m : LineNo) : (s.keepFlag l).line m = s.line m := by
  obtain ⟨fs, h⟩ := s.keepFlag_scan l
  rw [h]
  rfl

theorem pendingFlag_keepFlag (s : State) (l : LineNo) (r : RegionNo) : (s.keepFlag l).pendingFlag r = true ↔
    s.pendingFlag r = true ∨ ((s.line l).asserted = true ∧ (s.line l).region = r) := by
  by_cases h : (s.line l).asserted = true
  · rw [keepFlag_of_asserted h, pendingFlag_setPendingFlag]
    split_ifs with hr <;> simp [h, hr]
  · rw [keepFlag_of_not_asserted h]
    simp [h]

theorem pendingFlag_setLine (s : State) (l : LineNo) (x : Line) (r : RegionNo) :
    (s.setLine l x).pendingFlag r = s.pendingFlag r := rfl

theorem line_setPendingFlag (s : State) (q : RegionNo) (b : Bool) (m : LineNo) :
    (s.setPendingFlag q b).line m = s.line m := rfl

/-! #### Pin events (R141 to R143) -/

theorem takeAtn_of_loading (h : (s.line l).live ≠ high) (hl : s.loading = true) :
    s.takeAtn l high = s.setLine l { s.line l with live := high } :=
  (if_neg h).trans (if_pos hl)

theorem takeAtn_of_edge (h : (s.line l).live ≠ high) (hl : s.loading = false)
    (he : (s.line l).matchesEdge high = true) : s.takeAtn l high =
      (s.setLine l { s.line l with live := high, edgeSeen := true }).setPendingFlag (s.line l).region true :=
  ((if_neg h).trans (if_neg (by simp [hl]))).trans (if_pos he)

theorem takeAtn_of_no_edge (h : (s.line l).live ≠ high) (hl : s.loading = false)
    (he : ¬ (s.line l).matchesEdge high = true) : s.takeAtn l high =
      ((s.keepFlag l).setLine l { s.line l with live := high }).keepFlag l :=
  ((if_neg h).trans (if_neg (by simp [hl]))).trans (if_neg he)

/-- A level event sets the flag of an asserted line, before the change or after it, and no other. -/
theorem pendingFlag_takeAtn_of_no_edge (h : (s.line l).live ≠ high) (hl : s.loading = false)
    (he : ¬ (s.line l).matchesEdge high = true) (r : RegionNo) : (s.takeAtn l high).pendingFlag r = true ↔
      s.pendingFlag r = true ∨ (((s.line l).asserted = true ∨ ({ s.line l with live := high } : Line).asserted = true) ∧
        (s.line l).region = r) := by
  rw [takeAtn_of_no_edge h hl he, pendingFlag_keepFlag, pendingFlag_setLine, pendingFlag_keepFlag, line_setLine_self]
  tauto

end State

/-- Settles O50: while LOADING, on a matching edge, and on any other change. -/
theorem attentionEventsSetTheFlag : Obligations.AttentionEventsSetTheFlag := by
  refine ⟨fun l high s h => ?event, fun l s => ⟨fun hl ha => ?asserted, fun hno => ?other⟩⟩
  case event =>
    intro x edge level
    have hedge : x.matchesEdge high = true ↔ edge := x.matchesEdge_iff high
    obtain ⟨ls, fs, hframe⟩ := s.takeAtn_eq l high
    have hexec : exec (.atnEvent l high) s = .next (s.takeAtn l high) := rfl
    have ht : s.takeAtn l high = { s with
        lines := (s.takeAtn l high).lines
        scan := { s.scan with pendingFlags := (s.takeAtn l high).scan.pendingFlags } } := by rw [hframe]
    by_cases hl : s.loading = true
    · have htake := State.takeAtn_of_loading h hl
      rw [hl]
      refine ⟨_, hexec, ?_, fun m hm => ?_, by simp, fun _ => ?_, by simp, fun _ => ?_, fun r _ => ?_, ht⟩
      all_goals rw [htake]
      · rw [State.line_setLine_self]
      · exact State.line_setLine_ne _ hm.symm _
      · rw [State.line_setLine_self]
      · rfl
      · rfl
    have hl : s.loading = false := by simpa using hl
    rw [hl]
    by_cases he : x.matchesEdge high = true
    · have htake := State.takeAtn_of_edge h hl he
      have hyes : edge := hedge.mp he
      refine ⟨_, hexec, ?_, fun m hm => ?_, fun _ _ => ?_, fun hno => by simp [hyes] at hno, fun _ _ => ?_,
        fun hno => by simp [hyes] at hno, fun r hr => ?_, ht⟩
      all_goals rw [htake]
      · exact (State.line_setLine_self s l _).trans (by rw [State.line_setPendingFlag, State.line_setLine_self])
      · exact State.line_setLine_ne _ hm.symm _
      · rw [State.line_setPendingFlag, State.line_setLine_self]
      · rw [State.pendingFlag_setPendingFlag, if_pos rfl]
      · rw [State.pendingFlag_setPendingFlag, if_neg hr.symm]
        rfl
    · have htake := State.takeAtn_of_no_edge h hl he
      have hno : ¬ edge := mt hedge.mpr he
      have hflag := State.pendingFlag_takeAtn_of_no_edge h hl he
      have hline : ∀ m, (s.takeAtn l high).line m = if l = m then { x with live := high } else s.line m := fun m => by
        rw [htake, State.line_keepFlag]
        split_ifs with hm
        · rw [← hm, State.line_setLine_self]
        · rw [State.line_setLine_ne _ hm, State.line_keepFlag]
      refine ⟨_, hexec, ?_, fun m hm => ?_, fun _ hyes => absurd hyes hno, fun _ => ?_, fun _ hlevel => ?_, fun hnone => ?_,
        fun r hr => ?_, ht⟩
      · rw [hline, if_pos rfl]
      · rw [hline, if_neg hm.symm]
      · rw [hline, if_pos rfl]
      · exact (hflag _).mpr (.inr ⟨Line.asserted_or_asserted (hlevel.resolve_left hno) h, rfl⟩)
      · have hnot : ¬ level := (hnone.resolve_left (by simp)).2
        rw [htake, State.keepFlag_of_not_asserted (l := l), State.keepFlag_of_not_asserted (Line.not_asserted hnot)]
        · rfl
        · rw [State.line_setLine_self]
          exact Line.not_asserted hnot
      · rw [Bool.eq_iff_iff, hflag]
        exact ⟨fun hf => hf.resolve_right fun hx => hr hx.2.symm, .inl⟩
  case asserted =>
    have hexec : exec (.attentionFlagSetAgain l) s = .next (s.keepFlag l) := if_neg (by simp [hl])
    rw [hexec, State.keepFlag_of_asserted ((s.line l).asserted_iff.mpr ha)]
    rfl
  case other =>
    by_cases hl : s.loading = true
    · exact if_pos hl
    · have hexec : exec (.attentionFlagSetAgain l) s = .next (s.keepFlag l) := if_neg hl
      rw [hexec, State.keepFlag_of_not_asserted fun ha => ?_]
      exact hno.elim hl fun h => h ((s.line l).asserted_iff.mp ha)

end Sys2Proof.Machine

end

/-! ### Writes to ATTN_CONFIG, ATTN_STATE and CLASS_STATE (R60, R145 to R147) -/

section

namespace Sys2Proof.Machine

theorem getLsbD_loByte (w : Word) {i : Nat} (h : i < 8) : (loByte w).getLsbD i = flag w i := by
  simp [loByte, flag, h]

theorem getLsbD_hiByte (w : Word) {i : Nat} (h : i < 8) : (hiByte w).getLsbD i = flag w (8 + i) := by
  simp [hiByte, flag, h]

theorem extract_loByte (w : Word) {i k : Nat} (h : i + k ≤ 8) : ((loByte w).extractLsb' i k).toNat = field w i k := by
  unfold loByte field
  congr 1
  ext j hj
  simp [show i + j < 8 by omega]

theorem extract_hiByte (w : Word) {i k : Nat} (h : i + k ≤ 8) :
    ((hiByte w).extractLsb' i k).toNat = field w (8 + i) k := by
  unfold hiByte field
  congr 1
  ext j hj
  simp [show i + j < 8 by omega, Nat.add_assoc]

/-- The 8 bits of an ATTN_CONFIG word that configure a line (R145). -/
def lineField (w : Word) (l : LineNo) : Byte := if l.val % 2 = 0 then loByte w else hiByte w

theorem lineField_enable (w : Word) (l : LineNo) : (lineField w l).getLsbD 7 = flag w (8 * (l.val % 2) + 7) := by
  unfold lineField
  split_ifs with h
  · rw [getLsbD_loByte w (by omega), h]
  · rw [getLsbD_hiByte w (by omega), show l.val % 2 = 1 by omega]

theorem lineField_field (w : Word) (l : LineNo) {i k : Nat} (hik : i + k ≤ 8) :
    ((lineField w l).extractLsb' i k).toNat = field w (8 * (l.val % 2) + i) k := by
  unfold lineField
  split_ifs with h
  · rw [extract_loByte w hik, h, Nat.mul_zero, Nat.zero_add]
  · rw [extract_hiByte w hik, show l.val % 2 = 1 by omega]

namespace State

variable {s t u : State} {l m : LineNo} {r : RegionNo} {f : Byte} {x : Line} {w : Word} {n : Fin 4}

/-- A field configures its line where its write enable is set, and then keeps the flag of an asserted line (R145, R146). -/
theorem configureLine_effect (s : State) (l : LineNo) (f : Byte) :
    (∀ m, (s.configureLine l f).line m = if l = m then (s.line m).configured f else s.line m) ∧
    ∀ r, (s.configureLine l f).pendingFlag r = true ↔ s.pendingFlag r = true ∨
      (f.getLsbD 7 = true ∧ ((s.line l).configured f).asserted = true ∧ ((s.line l).configured f).region = r) := by
  by_cases h : f.getLsbD 7 = true
  · have hconf : s.configureLine l f = (s.setLine l ((s.line l).configured f)).keepFlag l := if_pos h
    rw [hconf]
    refine ⟨fun m => ?_, fun r => ?_⟩
    · rw [line_keepFlag]
      split_ifs with hm
      · rw [← hm, line_setLine_self]
      · rw [line_setLine_ne _ hm]
    · rw [pendingFlag_keepFlag, pendingFlag_setLine, line_setLine_self]
      simp [h]
  · have hconf : s.configureLine l f = s := if_neg h
    rw [hconf]
    refine ⟨fun m => ?_, fun r => ⟨.inl, fun hr => hr.resolve_right fun hx => h hx.1⟩⟩
    have hkeep : (s.line m).configured f = s.line m := if_neg h
    rw [hkeep, ite_self]

theorem lowLine_ne_highLine (n : Fin 4) : lowLine n ≠ highLine n := fun h => by
  have hval := congrArg Fin.val h
  simp [lowLine, highLine] at hval

theorem lineField_lowLine (w : Word) (n : Fin 4) : lineField w (lowLine n) = loByte w :=
  if_pos (by simp [lowLine])

theorem lineField_highLine (w : Word) (n : Fin 4) : lineField w (highLine n) = hiByte w :=
  if_neg (by simp [highLine])

theorem half_eq_iff (l : LineNo) (n : Fin 4) : l.val / 2 = n.val ↔ l = lowLine n ∨ l = highLine n := by
  simp only [lowLine, highLine, Fin.ext_iff]
  omega

/-- An ATTN_CONFIG write configures the two lines of its number, each by its field (R145, R146). -/
theorem writeAttnConfig_effect (s : State) (n : Fin 4) (w : Word) :
    (∀ l, (writeAttnConfig n w s).line l =
      if l.val / 2 = n.val then (s.line l).configured (lineField w l) else s.line l) ∧
    ∀ r, (writeAttnConfig n w s).pendingFlag r = true ↔ s.pendingFlag r = true ∨ ∃ l : LineNo, l.val / 2 = n.val ∧
      (lineField w l).getLsbD 7 = true ∧ ((s.line l).configured (lineField w l)).asserted = true ∧
      ((s.line l).configured (lineField w l)).region = r := by
  obtain ⟨hline, hflag⟩ := s.configureLine_effect (lowLine n) (loByte w)
  obtain ⟨hline', hflag'⟩ := (s.configureLine (lowLine n) (loByte w)).configureLine_effect (highLine n) (hiByte w)
  have hne := lowLine_ne_highLine n
  refine ⟨fun l => ?_, fun r => ?_⟩
  · rw [writeAttnConfig, hline', hline]
    by_cases hl : l.val / 2 = n.val
    · rw [if_pos hl]
      rcases (half_eq_iff l n).mp hl with rfl | rfl
      · rw [if_neg hne.symm, if_pos rfl, lineField_lowLine]
      · rw [if_pos rfl, if_neg hne, lineField_highLine]
    · obtain ⟨hlow, hhigh⟩ := not_or.mp (mt (half_eq_iff l n).mpr hl)
      rw [if_neg hl, if_neg (Ne.symm hhigh), if_neg (Ne.symm hlow)]
  · rw [writeAttnConfig, hflag', hflag, hline, if_neg hne, or_assoc]
    simp only [half_eq_iff, or_and_right, exists_or, exists_eq_left, lineField_lowLine, lineField_highLine]

theorem configured_of_enabled (h : f.getLsbD 7 = true) : x.configured f = { x with
    mode := LineMode.ofCode (f.extractLsb' 4 3).toNat, region := ⟨(f.extractLsb' 0 3).toNat, BitVec.isLt _⟩ } := if_pos h

theorem configured_of_not_enabled (h : ¬ f.getLsbD 7 = true) : x.configured f = x := if_neg h

/-- A register write that the port takes has its effect (R164, R165). -/
theorem WritesTo.portWrite_eq {v : Via} {a : BitVec 7} (h : s.WritesTo v a) (effect : State → State) :
    done (s.portWrite v a effect) = .next (effect s) := by
  obtain ⟨htaken, hloading⟩ := h
  exact congrArg Host.Outcome.next (s.portWrite_taken v a effect htaken hloading)

theorem line_writeAttnState (s : State) (w : Word) (l : LineNo) :
    (writeAttnState w s).line l = { s.line l with edgeSeen := (s.line l).edgeSeen && !flag w (8 + l.val) } := by
  simp [writeAttnState, line]

theorem classState_clearOverrun (s : State) (w : Word) (c k : ClassNo) : (s.clearOverrun w c).classState k =
    if c = k then { s.classState k with overrun := (s.classState k).overrun && !flag w (4 + k.val) }
    else s.classState k := by
  unfold clearOverrun
  split_ifs with h
  · rw [h, classState_setClassState_self]
  · rw [classState_setClassState_ne _ h]

theorem classState_writeClassState (s : State) (w : Word) (c : ClassNo) : (writeClassState w s).classState c =
    { s.classState c with overrun := (s.classState c).overrun && !flag w (4 + c.val) } := by
  unfold writeClassState
  fin_cases c <;> simp [classState_clearOverrun]

end State

/-- Settles O51: each of the three writes by the lemma about its effect. -/
theorem attentionAndClassWrites : Obligations.AttentionAndClassWrites := by
  intro v w s
  refine ⟨fun n h => ?config, fun h => ?edges, fun h => ?overruns⟩
  case config =>
    intro enabled mode asserts
    obtain ⟨hline, hflag⟩ := s.writeAttnConfig_effect n w
    have henabled : ∀ l, enabled l ↔ l.val / 2 = n.val ∧ (lineField w l).getLsbD 7 = true := fun l => by
      rw [lineField_enable]
    have hmode : ∀ l : LineNo, LineMode.ofCode ((lineField w l).extractLsb' 4 3).toNat = mode l := fun l => by
      rw [lineField_field w l (by omega)]
      rfl
    have hconfigured : ∀ l, enabled l → (State.writeAttnConfig n w s).line l = { s.line l with
        mode := mode l, region := ⟨((lineField w l).extractLsb' 0 3).toNat, BitVec.isLt _⟩ } := fun l hl => by
      obtain ⟨hhalf, hbit⟩ := (henabled l).mp hl
      rw [hline, if_pos hhalf, State.configured_of_enabled hbit, hmode]
    refine ⟨_, h.portWrite_eq _, fun l hl => ?_, fun l hl => ?_, fun r => ?_, ?_⟩
    · rw [hconfigured l hl]
      exact ⟨rfl, lineField_field w l (by omega), rfl, rfl⟩
    · rw [hline]
      split_ifs with hhalf
      · exact State.configured_of_not_enabled fun hbit => hl ((henabled l).mpr ⟨hhalf, hbit⟩)
      · rfl
    · rw [hflag]
      refine or_congr Iff.rfl (exists_congr fun l => ?_)
      by_cases hl : enabled l
      · obtain ⟨hhalf, hbit⟩ := (henabled l).mp hl
        have hafter : (s.line l).configured (lineField w l) = (State.writeAttnConfig n w s).line l := by
          rw [hline, if_pos hhalf]
        rw [hafter, Line.asserted_iff, hconfigured l hl]
        exact ⟨fun ⟨_, _, ha, hr⟩ => ⟨⟨hl, ha⟩, hr⟩, fun ⟨⟨_, ha⟩, hr⟩ => ⟨hhalf, hbit, ha, hr⟩⟩
      · exact ⟨fun ⟨hhalf, hbit, _⟩ => absurd ((henabled l).mpr ⟨hhalf, hbit⟩) hl, fun ⟨⟨hyes, _⟩, _⟩ => absurd hyes hl⟩
    · obtain ⟨ls, fs, h₁⟩ := s.configureLine_eq (State.lowLine n) (loByte w)
      obtain ⟨ls', fs', h₂⟩ := (s.configureLine (State.lowLine n) (loByte w)).configureLine_eq (State.highLine n) (hiByte w)
      rw [State.writeAttnConfig, h₂, h₁]
  case edges => exact ⟨_, h.portWrite_eq _, s.line_writeAttnState w, rfl⟩
  case overruns =>
    exact ⟨_, h.portWrite_eq _, s.classState_writeClassState w, rfl⟩

end Sys2Proof.Machine

end

/-! ### Writes to the notification registers (R150, R151, R156, R158) -/

section

namespace Sys2Proof.Machine

/-- A list that holds each number below its length once is one of different numbers below its length. -/
theorem all_lt_nodup_iff {k : Nat} {l : List Nat} (hl : l.length = k) :
    ((∀ x ∈ l, x < k) ∧ l.Nodup) ↔ ∀ u, u < k → l.count u = 1 := by
  constructor
  · rintro ⟨hlt, hnd⟩ u hu
    have hsub : l ⊆ List.range k := fun x hx => List.mem_range.mpr (hlt x hx)
    have hperm : l.Perm (List.range k) := (hnd.subperm hsub).perm_of_length_le (by rw [hl, List.length_range])
    exact List.count_eq_one_of_mem hnd (hperm.mem_iff.mpr (List.mem_range.mpr hu))
  · intro h
    have hsub : List.range k ⊆ l := fun u hu =>
      List.count_pos_iff.mp (by rw [h u (List.mem_range.mp hu)]; exact Nat.one_pos)
    have hperm : (List.range k).Perm l :=
      (List.nodup_range.subperm hsub).perm_of_length_le (by rw [hl, List.length_range])
    exact ⟨fun x hx => List.mem_range.mp (hperm.mem_iff.mpr hx), hperm.nodup_iff.mp List.nodup_range⟩

namespace State

variable {s : State} {n : PointNo} {b : Byte} {p : Port}

/-- A pair of order words is valid where it holds each level once (R151). -/
theorem orderValid_iff (lo hi : Word) :
    orderValid lo hi = true ↔ ∀ u, u < 8 → (orderEntries lo hi).count u = 1 := by
  rw [← all_lt_nodup_iff (show (orderEntries lo hi).length = 8 from rfl)]
  simp [orderValid]

/-- Causes that become fewer but not empty leave the notice sets (R149). -/
theorem notify_setCauses_of_ne (hb : b ≠ 0) (hn : (s.point n).causes ≠ 0) : (s.setCauses n b).notify = s.notify := by
  unfold setCauses
  dsimp only
  rw [if_neg hn, if_neg hb]
  rfl

/-- Only a point that had causes has any left after an ACK. -/
theorem causes_ne_of_and_ne {a m : Byte} (h : a &&& m ≠ 0) : a ≠ 0 := by
  rintro rfl
  exact h (BitVec.zero_and)

end State

/-- Settles O53: ACK by the lemmas about CAUSES, the order by the two readings of a valid pair. -/
theorem notificationWrites : Obligations.NotificationWrites := by
  intro v w s p
  refine ⟨fun h hs => ?ack, fun h => ?level, fun h => h.portWrite_eq _, fun h => h.portWrite_eq _, fun h => ?low,
    fun h => ?high⟩
  case ack =>
    intro n left
    refine ⟨_, h.portWrite_eq _, ?_, fun m hm => ?_, fun hleft => ?_, fun hleft => ?_, s.setCauses_frame n left⟩
    · exact (s.point_setCauses n n left).trans (if_pos rfl)
    · exact (s.point_setCauses n m left).trans (if_neg (Ne.symm hm))
    · have hempty : State.writeAck w s = s.emptyCauses n := congrArg (s.setCauses n) hleft
      rw [hempty]
      exact hs.leaves_emptyCauses n
    · exact State.notify_setCauses_of_ne hleft (State.causes_ne_of_and_ne hleft)
  case level =>
    refine ⟨_, h.portWrite_eq _, s.portOnly_setPort _ _, ?_, fun u hu => ?_, fun hw => ?_⟩
    · simp [State.writeClaimLevel, p]
    · have hsome : ∃ hw : w.toNat < 8, (⟨w.toNat, hw⟩ : Level) = u := ⟨hu ▸ u.isLt, Fin.ext hu.symm⟩
      simpa [State.writeClaimLevel, p] using hsome
    · simp [State.writeClaimLevel, p, Nat.not_lt.mpr hw]
  case low =>
    exact ⟨_, h.portWrite_eq _, s.portOnly_setPort _ _, State.port_setPort_self s p _⟩
  case high =>
    intro lo entries
    have hvalid : State.orderValid lo w = true ↔ ∀ u, u < 8 → entries.count u = 1 :=
      State.orderValid_iff lo w
    refine ⟨fun hcount => ?_, fun hcount => ?_⟩
    · have hok := hvalid.mpr hcount
      have hinstall : State.writeLevelOrderHi v.port w s = { s with
          notify := { s.notify with order := State.orderOf lo w } } := if_pos hok
      refine ⟨_, h.portWrite_eq _, ?_, ?_⟩
      · rw [hinstall]
        exact State.orderOf_eq_entries hok
      · rw [hinstall]
    · have hinstall : State.writeLevelOrderHi v.port w s = { s with notify := { s.notify with orderErr := true } } :=
        if_neg (mt hvalid.mp hcount)
      rw [← hinstall]
      exact h.portWrite_eq _

end Sys2Proof.Machine

end

/-! ### The interrupt line, CONTROL and the warm reset (R13, R73, R160, R161, R168) -/

section

namespace Sys2Proof.Machine

namespace State

variable {s t u : State} {p : Port}

/-! #### The interrupt line (R160, R161) -/

theorem commandDone_iff : s.commandDone p = true ↔ (s.slot p).state = .done ∧ (s.port p).doneInt = true := by
  simp [commandDone]

theorem intAsserted_iff : s.intAsserted = true ↔
    (s.notify.notifyEn = true ∧ ∃ v : Level, s.notify.mask.getLsbD v.val = true ∧ s.noticeSet v ≠ []) ∨
    ∃ p, (s.slot p).state = .done ∧ (s.port p).doneInt = true := by
  have hports : (∃ p, (s.slot p).state = .done ∧ (s.port p).doneInt = true) ↔
      s.commandDone .primary = true ∨ s.commandDone .maint = true := by
    simp only [← commandDone_iff]
    constructor
    · rintro ⟨_ | _, h⟩
      · exact .inl h
      · exact .inr h
    · rintro (h | h) <;> exact ⟨_, h⟩
  rw [hports]
  simp [intAsserted, isOpen, or_assoc]

theorem flag_statusView_int (s : State) (p : Port) : flag (s.statusView p) 5 = s.intAsserted := by
  simp [statusView, flag_or, flag_bitAt_self, flag_bitAt_ne]

/-! #### SCAN_RUN (R73, R74) -/

theorem classState_endWork (s : State) (c : ClassNo) : s.endWork.classState c = endPass (s.classState c) := by
  simp [endWork, classState]

theorem withdrawScan_of_not_requested (h : s.scan.req ≠ .requested) :
    s.withdrawScan = { s with scan := { s.scan with req := .free } } := by
  unfold withdrawScan
  split
  next hfree => rw [← hfree]
  next => rfl
  next hreq => exact absurd hreq h

theorem withdrawScan_of_entry (h : s.scan.req = .requested) (he : s.entry .scan ≠ none) :
    s.withdrawScan = { s.setEntry .scan none with scan := { s.scan with req := .free } } := by
  obtain ⟨q, hq⟩ := Option.ne_none_iff_exists'.mp he
  simp only [withdrawScan, h, hq]
  rfl

theorem withdrawScan_of_granted (h : s.scan.req = .requested) (he : s.entry .scan = none) : s.withdrawScan = s := by
  simp only [withdrawScan, h, he]

/-- Clearing SCAN_RUN ends the passes and the sweep, and touches no pending flag (R73). -/
theorem writeScanRun_clear_ends (h : s.scan.run = true) :
    (∀ c, (s.writeScanRun false).classState c = endPass (s.classState c)) ∧
    (s.writeScanRun false).scan.sweep = none ∧ (s.writeScanRun false).scan.sweepCursor = 0 ∧
    (s.writeScanRun false).scan.pendingFlags = s.scan.pendingFlags := by
  obtain ⟨q, e, hw⟩ := s.endWork.withdrawScan_eq
  rw [writeScanRun_clear h, hw]
  exact ⟨s.classState_endWork, rfl, rfl, rfl⟩

/-- Clearing SCAN_RUN withdraws what the scan engine has waiting, a granted access going on (R73, R124). -/
theorem writeScanRun_clear_withdraws (h : s.scan.run = true) :
    (s.scan.req ≠ .requested → (s.writeScanRun false).scan.req = .free ∧ (s.writeScanRun false).bus = s.bus) ∧
    (s.scan.req = .requested → s.entry .scan ≠ none →
      (s.writeScanRun false).scan.req = .free ∧ (s.writeScanRun false).bus = (s.setEntry .scan none).bus) ∧
    (s.scan.req = .requested → s.entry .scan = none →
      (s.writeScanRun false).scan.req = .requested ∧ (s.writeScanRun false).bus = s.bus) := by
  rw [writeScanRun_clear h]
  refine ⟨fun hreq => ?_, fun hreq he => ?_, fun hreq he => ?_⟩
  · rw [withdrawScan_of_not_requested (s := s.endWork) hreq]
    exact ⟨rfl, rfl⟩
  · rw [withdrawScan_of_entry (s := s.endWork) hreq he]
    exact ⟨rfl, rfl⟩
  · rw [withdrawScan_of_granted (s := s.endWork) hreq he]
    exact ⟨hreq, rfl⟩

/-- Writing SCAN_RUN otherwise changes SCAN_RUN only (R73, R74). -/
theorem writeScanRun_of_kept {on : Bool} (h : on = true ∨ s.scan.run = false) :
    s.writeScanRun on = { s with scan := { s.scan with run := on } } := by
  cases on with
  | true => rfl
  | false =>
    have hrun : s.scan.run = false := h.resolve_left Bool.false_ne_true
    rw [writeScanRun_idle hrun, ← hrun]

theorem run_writeScanRun (s : State) (on : Bool) : (s.writeScanRun on).scan.run = on := by
  by_cases h : on = true ∨ s.scan.run = false
  · rw [writeScanRun_of_kept h]
  · simp only [not_or, Bool.not_eq_true, Bool.not_eq_false] at h
    obtain ⟨rfl, hrun⟩ := h
    rw [writeScanRun_clear hrun]

/-! #### CONTROL (R168) -/

theorem scan_applyControl (s : State) (p : Port) (w : Word) :
    (s.applyControl p w).scan = (s.writeScanRun (flag w 0)).scan := by cases p <;> rfl

theorem bus_applyControl (s : State) (p : Port) (w : Word) :
    (s.applyControl p w).bus = (s.writeScanRun (flag w 0)).bus := by cases p <;> rfl

theorem classState_applyControl (s : State) (p : Port) (w : Word) (c : ClassNo) :
    (s.applyControl p w).classState c = (s.writeScanRun (flag w 0)).classState c := by cases p <;> rfl

theorem entry_congr (h : t.bus = s.bus) (r : Requester) : t.entry r = s.entry r := by
  unfold entry
  rw [h]

theorem notify_applyControl (s : State) (p : Port) (w : Word) :
    (s.applyControl p w).notify = { s.notify with notifyEn := flag w 1 } := by
  obtain ⟨_, _, hx⟩ := s.writeScanRun_eq (flag w 0)
  rw [applyControl, hx]
  cases p <;> rfl

theorem port_applyControl_other (s : State) (p : Port) (w : Word) :
    (s.applyControl p w).port (otherPort p) = s.port (otherPort p) := by
  obtain ⟨_, _, hx⟩ := s.writeScanRun_eq (flag w 0)
  rw [applyControl, hx]
  cases p <;> rfl

/-- The CONTROL word holds the four positions it was made from (R172). -/
theorem flag_controlWord (run notifyEn doneInt warm : Bool) :
    flag (controlWord run notifyEn doneInt warm) 0 = run ∧ flag (controlWord run notifyEn doneInt warm) 1 = notifyEn ∧
    flag (controlWord run notifyEn doneInt warm) 2 = doneInt ∧
    flag (controlWord run notifyEn doneInt warm) 15 = warm := by
  simp [controlWord, flag_or, flag_bitAt_self, flag_bitAt_ne]

theorem writesTo_control_applied {v : Via} {w : Word} (h : s.WritesTo v Reg.control)
    (hw : ¬ (v.port = .primary ∧ flag w 15 = true)) :
    done (s.portWrite v Reg.control (writeControl v.port w)) = .next (s.applyControl v.port w) := by
  rw [h.portWrite_eq, writeControl_of_not_warm hw]

/-- The rows of `AppliesControl` apply a word with their values. -/
theorem WritesTo.exec_control {i : Instr} {v : Via} {run notifyEn doneInt : Bool} (h : s.WritesTo v Reg.control)
    (hi : AppliesControl i v run notifyEn doneInt) :
    ∃ w, flag w 0 = run ∧ flag w 1 = notifyEn ∧ flag w 2 = doneInt ∧ exec i s = .next (s.applyControl v.port w) := by
  have hcold : ¬ (v.port = .primary ∧ flag (controlWord run notifyEn doneInt false) 15 = true) := by
    simp [(flag_controlWord run notifyEn doneInt false).2.2.2]
  obtain ⟨hrun, hnotify, hdone, -⟩ := flag_controlWord run notifyEn doneInt false
  rcases hi with ⟨rfl, rfl⟩ | ⟨rfl, rfl⟩ | rfl | rfl | ⟨rfl, hport⟩
  · exact ⟨_, hrun, hnotify, hdone, writesTo_control_applied h hcold⟩
  · exact ⟨_, hrun, hnotify, hdone, writesTo_control_applied h hcold⟩
  · exact ⟨_, hrun, hnotify, hdone, writesTo_control_applied h hcold⟩
  · exact ⟨_, hrun, hnotify, hdone, writesTo_control_applied h hcold⟩
  · obtain ⟨hrun, hnotify, hdone, -⟩ := flag_controlWord run notifyEn doneInt true
    exact ⟨_, hrun, hnotify, hdone, writesTo_control_applied h (by simp [hport])⟩

/-! #### The warm reset (R13, R50, R75) -/

theorem port_warmReset (s : State) (p : Port) : s.warmReset.port p = (s.port p).warm := by
  rw [warmReset_eq]
  cases p <;> rfl

theorem warm_of_busy {c : Command} (h : s.busyWith p = some c) : (s.port p).warm = { s.port p with
    claimLevel := none, slot := { s.slot p with state := .done, result := .aborted } } := by
  have hstate : (s.port p).slot.state = .busy c := busyWith_eq_some_iff.mp h
  simp only [PortState.warm, hstate]
  rfl

theorem warm_of_not_busy (h : s.busyWith p = none) : (s.port p).warm = { s.port p with claimLevel := none } := by
  have hslot : ∀ c, (s.port p).slot.state ≠ .busy c := fun c hc => by
    have hbusy : s.busyWith p = some c := busyWith_eq_some_iff.mpr hc
    rw [h] at hbusy
    exact Option.some_ne_none c hbusy.symm
  unfold PortState.warm
  split
  next c hc => exact absurd hc (hslot c)
  next => rfl
  next => rfl

theorem WritesTo.exec_warm {v : Via} (h : s.WritesTo v Reg.control) (hp : v.port = .primary)
    (run notifyEn doneInt : Bool) : exec (.warm v run notifyEn doneInt) s = .next s.warmReset := by
  have hwarm : writeControl v.port (controlWord run notifyEn doneInt true) s = s.warmReset :=
    writeControl_of_warm ⟨hp, (flag_controlWord run notifyEn doneInt true).2.2.2⟩
  exact (h.portWrite_eq _).trans (congrArg Host.Outcome.next hwarm)

end State

/-- Settles O54: the line by its two conditions, and while LOADING by the quiet of the blocks that are held. -/
theorem interruptLineFollowsItsConditions : Obligations.InterruptLineFollowsItsConditions := by
  refine ⟨fun s => State.intAsserted_iff, fun s p => s.flag_statusView_int p, fun s hq hl => ?_⟩
  obtain ⟨-, -, hidle, -, -, -, hnotify⟩ := hq hl
  rw [← Bool.not_eq_true, State.intAsserted_iff]
  rintro (⟨hon, -⟩ | ⟨p, hdone, -⟩)
  · rw [hnotify] at hon
    exact Bool.false_ne_true hon
  · rw [hidle p] at hdone
    exact SlotState.noConfusion hdone

/-- Settles O55: the word is applied, and SCAN_RUN by the lemmas about its two kinds of write. -/
theorem controlWritesAreApplied : Obligations.ControlWritesAreApplied := by
  intro i v run notifyEn doneInt s hi h
  obtain ⟨w, hrun, hnotify, hdone, hexec⟩ := h.exec_control hi
  refine ⟨_, hexec, ?_, ?_, ?_, s.port_applyControl_other _ _, fun hkept => ?_, fun hclear hset => ?cleared, ?_⟩
  · rw [State.scan_applyControl, State.run_writeScanRun, hrun]
  · rw [State.notify_applyControl, hnotify]
  · rw [State.applyControl, State.port_setPort_self, hdone]
  · rw [State.scan_applyControl, State.bus_applyControl, hrun, State.writeScanRun_of_kept hkept]
    exact ⟨rfl, rfl⟩
  case cleared =>
    subst hclear
    obtain ⟨hpass, hsweep, hcursor, hflags⟩ := State.writeScanRun_clear_ends hset
    obtain ⟨hfree, hwaiting, hgranted⟩ := State.writeScanRun_clear_withdraws hset
    simp only [State.scan_applyControl, State.bus_applyControl, State.classState_applyControl, hrun]
    refine ⟨hpass, hsweep, hcursor, hflags, hfree, fun hreq he => ?_, hgranted⟩
    obtain ⟨hreq', hbus⟩ := hwaiting hreq he
    have hentry : ∀ r, (s.applyControl v.port w).entry r = (s.setEntry .scan none).entry r :=
      State.entry_congr (by rw [State.bus_applyControl, hrun, hbus])
    refine ⟨hreq', ?_, fun r hr => ?_, ?_⟩
    · rw [hentry, State.entry_setEntry_self]
    · rw [hentry, s.entry_setEntry_ne hr.symm]
    · rw [hbus]
      rfl
  · obtain ⟨_, _, _, _, _, hframe⟩ := s.applyControl_eq v.port w
    rw [hframe]

/-- Settles O56: the reset part by part, the pool by the fold over the RETIRING points. -/
theorem warmResetEndsTheWork : Obligations.WarmResetEndsTheWork := by
  intro v run notifyEn doneInt s hp h hfree
  obtain ⟨hasc, hmem⟩ := State.freeSegs_returnRetiring hfree
  refine ⟨_, h.exec_warm hp run notifyEn doneInt, fun n hn => ?_, fun n hn => ?_, ?_, ?_, fun p c hc => ?_,
    fun p hp => ?_, s.classState_warmReset, fun r => ?_, ?_⟩
  · rw [State.point_warmReset, Point.warm, if_pos hn]
  · rw [State.point_warmReset, Point.warm, if_neg hn]
  · rw [State.freeSegs_warmReset]
    exact hasc
  · rw [State.freeSegs_warmReset]
    exact hmem
  · rw [State.port_warmReset, State.warm_of_busy hc]
  · rw [State.port_warmReset, State.warm_of_not_busy hp]
  · rw [State.warmReset_eq]
    simp [State.pendingFlag, Scan.warm]
  · refine ⟨?_, ?_, ?_, ?_, ?_, s.noticeSet_warmReset, ?_, ?_⟩
    all_goals rw [State.warmReset_eq]
    all_goals rfl

end Sys2Proof.Machine

end

/-! ### The block area and the framing of the ports (R164, R165, R167) -/

section

namespace Sys2Proof.Machine.State

variable {s t : State} {v : Via} {p : Port} {z : BitVec 7}

/-! #### Framing (R164, R165, R170) -/

theorem writesTo_spi_iff {y : BitVec 7} : s.WritesTo .spi y ↔ s.spi = .active false y ∧ s.loading = false := by
  simp [WritesTo, takesWord]

theorem readsFrom_spi_iff {y : BitVec 7} : s.ReadsFrom .spi y ↔ s.spi = .active true y ∧ s.loading = false := by
  simp [ReadsFrom, takesWord]

theorem writesTo_i2c_iff {y : BitVec 7} : s.WritesTo (.i2c z) y ↔
    z = s.i2cAddr ∧ s.pointer = y ∧ s.i2cWriteOpen = true ∧ s.loading = false := by
  simp only [WritesTo, takesWord, Bool.and_eq_true, beq_iff_eq, Bool.not_eq_true', Bool.false_or]
  tauto

theorem readsFrom_i2c_iff {y : BitVec 7} : s.ReadsFrom (.i2c z) y ↔
    z = s.i2cAddr ∧ s.pointer = y ∧ s.loading = false := by
  simp only [ReadsFrom, takesWord, Bool.and_eq_true, beq_iff_eq, Bool.not_eq_true', Bool.true_or]
  tauto

theorem not_writesTo_i2c_of_closed {y : BitVec 7} (h : s.i2cWriteOpen = false) : ¬ s.WritesTo (.i2c z) y := by
  simp [writesTo_i2c_iff, h]

/-! #### The block area (R167) -/

theorem blockAreaWord_params {a : BitVec 7} (k : Fin 16) (h : a.toNat = k.val) :
    s.blockAreaWord p a = (s.port p).params[k.val] := by
  simp [blockAreaWord, h]

theorem blockAreaWord_result {a : BitVec 7} (k : Fin 64) (h : a.toNat = 16 + k.val) :
    s.blockAreaWord p a = (s.slot p).area[k.val] := by
  have hlt : 16 + k.val < 80 := by omega
  simp [blockAreaWord, h, hlt]

theorem blockAreaWord_beyond {a : BitVec 7} (h : 80 ≤ a.toNat) : s.blockAreaWord p a = 0 := by
  have hparams : ¬ a.toNat < 16 := by omega
  simp [blockAreaWord, hparams, Nat.not_lt.mpr h]

/-- BLK_ADDR goes from 127 to 0 (R167). -/
theorem toNat_blkAddr_succ (a : BitVec 7) : (a + 1).toNat = (a.toNat + 1) % 128 := by
  rw [BitVec.toNat_add]
  rfl

/-- A read of BLK_DATA answers the word at BLK_ADDR, which advances (R165, R167). -/
def answerBlkData (v : Via) (s : State) : State :=
  ((s.closeWrite v).setPort v.port { s.port v.port with blkAddr := (s.port v.port).blkAddr + 1 }).send v.port
    (s.blockAreaWord v.port (s.port v.port).blkAddr)

theorem ReadsFrom.exec_blkDataRead (h : s.ReadsFrom v Reg.blkData) :
    exec (.blkDataRead v) s = .next (s.answerBlkData v) := by
  have hread : exec (.blkDataRead v) s = done (s.portRead v Reg.blkData 0 (readBlkData v.port)) := rfl
  rw [hread, h.portRead_eq]
  cases v <;> rfl

theorem port_answerBlkData_self (v : Via) (s : State) : (s.answerBlkData v).port v.port = { s.port v.port with
    blkAddr := (s.port v.port).blkAddr + 1, sent := s.blockAreaWord v.port (s.port v.port).blkAddr } := by
  cases v <;> rfl

theorem port_answerBlkData_other (v : Via) (s : State) :
    (s.answerBlkData v).port (otherPort v.port) = s.port (otherPort v.port) := by
  cases v <;> rfl

/-! #### The I2C write transaction (R165) -/

theorem i2cWriteOpen_takeClaim (p : Port) (s : State) : (takeClaim p s).2.i2cWriteOpen = s.i2cWriteOpen := by
  unfold takeClaim
  split
  · dsimp only
    split_ifs
    · simp [latchClaim]
    · rw [emptyCauses, setCauses_frame]
      simp [latchClaim]
  · simp [latchClaim]

theorem i2cWriteOpen_send (s : State) (p : Port) (w : Word) : (s.send p w).i2cWriteOpen = s.i2cWriteOpen := by
  cases p <;> rfl

theorem ReadsFrom.i2cWriteOpen_claim (h : s.ReadsFrom (.i2c z) Reg.claim) (ht : exec (.claim (.i2c z)) s = .next t) :
    t.i2cWriteOpen = false := by
  have hclaim : exec (.claim (.i2c z)) s = done (s.portRead (.i2c z) Reg.claim 0 (takeClaim .maint)) := rfl
  rw [hclaim, h.portRead_eq] at ht
  obtain rfl := Host.Outcome.next.inj ht
  rw [i2cWriteOpen_send, i2cWriteOpen_takeClaim]
  rfl

theorem ReadsFrom.i2cWriteOpen_blkDataRead (h : s.ReadsFrom (.i2c z) Reg.blkData)
    (ht : exec (.blkDataRead (.i2c z)) s = .next t) : t.i2cWriteOpen = false := by
  rw [h.exec_blkDataRead] at ht
  obtain rfl := Host.Outcome.next.inj ht
  rfl

end Sys2Proof.Machine.State

namespace Sys2Proof.Machine

/-- Settles O57: the accesses of BLK_DATA by the word at its address, the framing by what makes the ports take a word. -/
theorem blockAreaAndFraming : Obligations.BlockAreaAndFraming := by
  refine ⟨fun v s h => ?reads, fun v w s h => ?writes, fun b s hready => ?command, fun s => ?rises,
    fun target b s => ?pointer, fun z s t ht => ?closes⟩
  case reads =>
    intro p a
    have hport : (s.answerBlkData v).port p = { s.port p with
        blkAddr := (s.port p).blkAddr + 1, sent := s.blockAreaWord p (s.port p).blkAddr } :=
      s.port_answerBlkData_self v
    refine ⟨_, h.exec_blkDataRead, ?_, ?_, fun k hk => ?_, fun k hk => ?_, fun ha => ?_, s.port_answerBlkData_other v, ?_⟩
    · rw [hport]
    · rw [hport]
      exact State.toNat_blkAddr_succ _
    · rw [hport]
      exact State.blockAreaWord_params k hk
    · rw [hport]
      exact State.blockAreaWord_result k hk
    · rw [hport]
      exact State.blockAreaWord_beyond ha
    · cases v <;> rfl
  case writes =>
    intro p a
    have hport : (State.writeBlkData p w s).port p = _ := s.port_setPort_self p _
    refine ⟨_, h.portWrite_eq _, s.portOnly_setPort _ _, ?_, ?_, fun k => ?_⟩
    · rw [hport]
    · rw [hport]
      exact State.toNat_blkAddr_succ _
    · rw [hport]
      dsimp only
      by_cases hk : (s.port p).blkAddr.toNat < 16
      · rw [dif_pos hk, Vector.getElem_set]
      · have hne : a ≠ k.val := fun ha => hk (lt_of_eq_of_lt ha k.isLt)
        rw [dif_neg hk, if_neg hne]
  case command =>
    intro addr
    have htaken : s.takeCommandByte b = { s with spi := .active (b.getLsbD 7) addr, sdo := .low } := by
      simp only [State.takeCommandByte, hready]
      rfl
    refine ⟨_, congrArg Host.Outcome.next htaken, rfl, fun y => ?_, fun y => ?_⟩
    · rw [State.writesTo_spi_iff, Spi.active.injEq, eq_comm (a := addr), and_assoc]
      rfl
    · rw [State.readsFrom_spi_iff, Spi.active.injEq, eq_comm (a := addr), and_assoc]
      rfl
  case rises =>
    refine ⟨_, rfl, rfl, fun y => ?_⟩
    simp [State.writesTo_spi_iff, State.readsFrom_spi_iff]
  case pointer =>
    intro addr
    refine ⟨fun htarget hl => ?_, fun hnot => ?_⟩
    · have htaken : s.takePointer target b = { s with pointer := addr, i2cWriteOpen := true } := if_pos ⟨htarget, hl⟩
      have hl' : ({ s with pointer := addr, i2cWriteOpen := true } : State).loading = false := hl
      refine ⟨_, congrArg Host.Outcome.next htaken, rfl, fun z y => ⟨?_, ?_⟩⟩
      · rw [State.writesTo_i2c_iff, eq_comm (a := y)]
        simp [hl']
      · rw [State.readsFrom_i2c_iff, eq_comm (a := y)]
        simp [hl']
    · have htaken : s.takePointer target b = { s with i2cWriteOpen := false } :=
        if_neg fun hboth => hnot.elim (absurd hboth.1) fun hl => by simp [hl] at hboth
      exact ⟨_, congrArg Host.Outcome.next htaken, rfl, fun z y => State.not_writesTo_i2c_of_closed rfl⟩
  case closes =>
    intro x y
    refine State.not_writesTo_i2c_of_closed ?_
    obtain ⟨a, ha, ⟨rfl, hclaim⟩ | ⟨rfl, hread⟩⟩ := ht
    · exact ha.i2cWriteOpen_claim hclaim
    · exact ha.i2cWriteOpen_blkDataRead hread

end Sys2Proof.Machine

end

/-! ### Writes to STATUS, BLK_ADDR and the registers that take none (R166 to R170) -/

section

namespace Sys2Proof.Machine.State

variable {s : State} {p : Port}

/-- The STATUS word holds the two positions it was made from (R172). -/
theorem flag_statusWord (orderErr collision : Bool) :
    flag (statusWord orderErr collision) 6 = orderErr ∧ flag (statusWord orderErr collision) 7 = collision := by
  simp [statusWord, flag_or, flag_bitAt_self, flag_bitAt_ne]

/-- A STATUS write clears the two flags where the word holds 1 (R169). -/
theorem writeStatus_eq_setPort (s : State) (p : Port) (w : Word) : writeStatus p w s =
    ({ s with notify := { s.notify with orderErr := s.notify.orderErr && !flag w 6 } } : State).setPort p
      { s.port p with collision := (s.port p).collision && !flag w 7 } := by
  have horder : (if flag w 6 = true then { s with notify := { s.notify with orderErr := false } } else s) =
      { s with notify := { s.notify with orderErr := s.notify.orderErr && !flag w 6 } } := by
    cases flag w 6 <;> simp
  have hcollision : ∀ u : State, (if flag w 7 = true then u.setPort p { u.port p with collision := false } else u) =
      u.setPort p { u.port p with collision := (u.port p).collision && !flag w 7 } := fun u => by
    cases flag w 7
    · simpa using (u.setPort_port_self p).symm
    · simp
  unfold writeStatus
  rw [horder]
  dsimp only
  rw [hcollision]
  cases p <;> rfl

theorem writeStatus_effect (s : State) (p : Port) (w : Word) :
    (writeStatus p w s).notify = { s.notify with orderErr := s.notify.orderErr && !flag w 6 } ∧
    (writeStatus p w s).port p = { s.port p with collision := (s.port p).collision && !flag w 7 } ∧
    (writeStatus p w s).port (otherPort p) = s.port (otherPort p) ∧
    writeStatus p w s = { s with
      notify := (writeStatus p w s).notify, primary := (writeStatus p w s).primary
      maint := (writeStatus p w s).maint } := by
  rw [writeStatus_eq_setPort]
  cases p <;> exact ⟨rfl, rfl, rfl, rfl⟩

/-- A write to a register that takes none has no effect (R166). -/
theorem writeAny_of_not_own {addr : BitVec 7} (w : Word) (hown : ownBehaviour addr = false)
    (hne : addr ≠ Reg.blkAddr) : writeAny p addr w s = s := by
  unfold writeAny
  split
  case h_4 haddr => exact absurd (BitVec.eq_of_toNat_eq haddr) hne
  case h_18 => rfl
  all_goals
    rename_i haddr
    rw [ownBehaviour, haddr] at hown
    exact absurd hown (by decide)

end Sys2Proof.Machine.State

namespace Sys2Proof.Machine

/-- Settles O58: each register by its own effect, and while LOADING by the rows that write registers. -/
theorem registerWritesAreTakenOrIgnored : Obligations.RegisterWritesAreTakenOrIgnored := by
  refine ⟨fun v b s h => ?status, fun v w s h => ?address, fun v addr w s h hne hown => ?unused,
    fun v w b x y z n addr s hl i hi => ?loading⟩
  case status =>
    intro p
    refine ⟨⟨_, h.portWrite_eq _, ?_⟩, ⟨_, h.portWrite_eq _, ?_⟩⟩
    · obtain ⟨hnotify, hport, hother, hframe⟩ := s.writeStatus_effect p (State.statusWord true b)
      obtain ⟨h6, h7⟩ := State.flag_statusWord true b
      rw [h6, Bool.not_true, Bool.and_false] at hnotify
      rw [h7] at hport
      exact ⟨hnotify, hport, hother, hframe⟩
    · obtain ⟨hnotify, hport, hother, hframe⟩ := s.writeStatus_effect p (State.statusWord b true)
      obtain ⟨h6, h7⟩ := State.flag_statusWord b true
      rw [h6] at hnotify
      rw [h7, Bool.not_true, Bool.and_false] at hport
      exact ⟨hnotify, hport, hother, hframe⟩
  case address =>
    exact ⟨_, h.portWrite_eq _, s.portOnly_setPort _ _, s.port_setPort_self v.port _⟩
  case unused =>
    exact (h.portWrite_eq _).trans (congrArg Host.Outcome.next (State.writeAny_of_not_own w hown hne))
  case loading =>
    have hwritten : ∃ a, State.registerWritten i = some (v, a) := by
      simp only [List.mem_cons, List.not_mem_nil, or_false] at hi
      rcases hi with rfl | rfl | rfl | rfl | rfl | rfl | rfl | rfl | rfl | rfl | rfl | rfl | rfl | rfl | rfl | rfl |
        rfl | rfl | rfl | rfl <;> exact ⟨_, rfl⟩
    obtain ⟨a, ha⟩ := hwritten
    exact State.exec_registerWritten_ignored ha (.inr hl)

end Sys2Proof.Machine

end

/-! ### The verdict of the verify pass (R178, R179) -/

section

namespace Sys2Proof.Machine

/-- A list is its first `k` entries and the rest. -/
theorem eq_map_getD_append_drop {α : Type} (l : List α) (d : α) {k : Nat} (h : k ≤ l.length) :
    l = (List.range k).map (fun i => l.getD i d) ++ l.drop k := by
  have htake : (List.range k).map (fun i => l.getD i d) = l.take k := by
    refine List.ext_getElem (by simp [h]) fun i hi hi' => ?_
    simp only [List.length_map, List.length_range] at hi
    have hlt : i < l.length := by omega
    simp [List.getElem?_eq_getElem hlt]
  rw [htake, List.take_append_drop]

section

variable {bs : List Byte} {a b c d : Word} {l : List Word}

/-! #### The judgement, case by case (R179) -/

theorem verdict_blank (h : wordsOf bs = 0xFFFF :: l) : verdict (.bytes bs) = some .blank := by
  simp [verdict, h, Config.blankWord]

theorem verdict_wrongSignature (h : wordsOf bs = a :: l) (hblank : a ≠ 0xFFFF) (ha : a ≠ 0x61C4) :
    verdict (.bytes bs) = some .bad := by
  have hblank' : a ≠ Config.blankWord := hblank
  have ha' : a ≠ Config.imageSignature := ha
  simp [verdict, h, hblank', ha']

theorem verdict_wrongVersion (h : wordsOf bs = 0x61C4 :: b :: l) (hb : b ≠ 1) : verdict (.bytes bs) = some .bad := by
  have hb' : b ≠ Config.imageVersion := hb
  simp [verdict, h, Config.blankWord, Config.imageSignature, hb']

theorem verdict_tooManyRegions (h : wordsOf bs = 0x61C4 :: 1 :: c :: l) (hc : 8 < c.toNat) :
    verdict (.bytes bs) = some .bad := by
  simp [verdict, h, Config.blankWord, Config.imageSignature, Config.imageVersion, hc]

theorem verdict_tooManyPoints (h : wordsOf bs = 0x61C4 :: 1 :: c :: d :: l) (hd : 256 < d.toNat) :
    verdict (.bytes bs) = some .bad := by
  simp [verdict, h, Config.blankWord, Config.imageSignature, Config.imageVersion, hd]

/-- A header in order is judged by the sum of the image, once it is delivered. -/
theorem verdict_header (h : wordsOf bs = 0x61C4 :: 1 :: c :: d :: l) (hc : c.toNat ≤ 8) (hd : d.toNat ≤ 256) :
    verdict (.bytes bs) =
      if (wordsOf bs).length < imageWords c.toNat d.toNat then none
      else if ((wordsOf bs).take (imageWords c.toNat d.toNat)).sum = 0 then some (.sound c.toNat d.toNat)
      else some .bad := by
  rw [← sumWords_eq_sum]
  simp [verdict, h, Config.blankWord, Config.imageSignature, Config.imageVersion, Nat.not_lt.mpr hc, Nat.not_lt.mpr hd]

theorem verdict_of_noWord (h : wordsOf bs = []) : verdict (.bytes bs) = none := by
  simp [verdict, h]

theorem verdict_of_oneWord (h : wordsOf bs = [0x61C4]) : verdict (.bytes bs) = none := by
  simp [verdict, h, Config.blankWord, Config.imageSignature]

theorem verdict_of_twoWords (h : wordsOf bs = [0x61C4, 1]) : verdict (.bytes bs) = none := by
  simp [verdict, h, Config.blankWord, Config.imageSignature, Config.imageVersion]

theorem verdict_of_threeWords (h : wordsOf bs = [0x61C4, 1, c]) (hc : c.toNat ≤ 8) : verdict (.bytes bs) = none := by
  simp [verdict, h, Config.blankWord, Config.imageSignature, Config.imageVersion, Nat.not_lt.mpr hc]

end

namespace State

variable {s : State} {r : EepromAnswer} {v : Verdict}

theorem makes_of_verify (h : s.loader.state = .verify) (r : EepromAnswer) : s.makes ⟨0x50, 0, r⟩ = true := by
  rw [makes_iff]
  refine ⟨rfl, ?_⟩
  simp only [startAddress, h]
  rfl

theorem exec_verifyPass_judged (h : s.loader.state = .verify) (hv : verdict r = some v) :
    exec (.verifyPass ⟨0x50, 0, r⟩) s = .next (s.takeVerdict v) := by
  have hrow : exec (.verifyPass ⟨0x50, 0, r⟩) s = execVerifyPass ⟨0x50, 0, r⟩ s := rfl
  rw [hrow, execVerifyPass, if_pos ⟨h, makes_of_verify h r⟩]
  simp only [hv]
  rfl

theorem exec_verifyPass_open (h : s.loader.state = .verify) (hv : verdict r = none) :
    exec (.verifyPass ⟨0x50, 0, r⟩) s = .next s := by
  have hrow : exec (.verifyPass ⟨0x50, 0, r⟩) s = execVerifyPass ⟨0x50, 0, r⟩ s := rfl
  rw [hrow, execVerifyPass, if_pos ⟨h, makes_of_verify h r⟩]
  simp only [hv]
  rfl

end State

/-- Settles O59: what the EEPROM delivered is judged case by case. -/
theorem verifyPassJudgesTheImage : Obligations.VerifyPassJudgesTheImage := by
  intro s hs ends
  have hbad : ∀ r, verdict r = some .bad → ends r true := fun r hr => State.exec_verifyPass_judged hs hr
  refine ⟨hbad _ rfl, fun bs => ?_⟩
  intro w n words starts
  have hlen : (wordsOf bs).length = words := length_wordsOf bs
  have hwords : ∀ k, k ≤ words → wordsOf bs = (List.range k).map w ++ (wordsOf bs).drop k := fun k hk =>
    eq_map_getD_append_drop _ _ (by omega)
  have hend : ∀ k, words = k → (wordsOf bs).drop k = [] := fun k hk => List.drop_eq_nil_of_le (by omega)
  have h₁ : 1 ≤ words → wordsOf bs = w 0 :: (wordsOf bs).drop 1 := hwords 1
  have h₂ : 2 ≤ words → wordsOf bs = w 0 :: w 1 :: (wordsOf bs).drop 2 := hwords 2
  have h₃ : 3 ≤ words → wordsOf bs = w 0 :: w 1 :: w 2 :: (wordsOf bs).drop 3 := hwords 3
  have h₄ : 4 ≤ words → wordsOf bs = w 0 :: w 1 :: w 2 :: w 3 :: (wordsOf bs).drop 4 := hwords 4
  refine ⟨fun hk h0 => ?blank, fun hk hblank h0 => ?signature, fun hk h0 h1 => ?version, fun hk ⟨h0, h1⟩ h2 => ?regions,
    fun hk ⟨h0, h1⟩ h3 => ?points, fun hk ⟨h0, h1⟩ h2 h3 => ?image, ?unended⟩
  case blank =>
    exact State.exec_verifyPass_judged hs (verdict_blank (h0 ▸ h₁ hk))
  case signature =>
    exact hbad _ (verdict_wrongSignature (h₁ hk) hblank h0)
  case version =>
    exact hbad _ (verdict_wrongVersion (h0 ▸ h₂ hk) h1)
  case regions =>
    exact hbad _ (verdict_tooManyRegions (h0 ▸ h1 ▸ h₃ hk) h2)
  case points =>
    exact hbad _ (verdict_tooManyPoints (h0 ▸ h1 ▸ h₄ hk) h3)
  case image =>
    have hfour : 4 ≤ words := by omega
    have hlong : ¬ (wordsOf bs).length < imageWords (w 2).toNat (w 3).toNat := by
      rw [hlen]
      exact Nat.not_lt.mpr hk
    have hjudged := verdict_header (h0 ▸ h1 ▸ h₄ hfour) h2 h3
    rw [if_neg hlong] at hjudged
    refine ⟨fun hsum => ?_, fun hsum => ?_⟩
    · exact hbad _ (hjudged.trans (if_neg hsum))
    · exact ⟨_, State.exec_verifyPass_judged hs (hjudged.trans (if_pos hsum)), rfl, rfl, rfl, rfl, rfl, rfl, rfl, rfl, rfl⟩
  case unended =>
    rintro (hk | ⟨hk, h0⟩ | ⟨hk, h0, h1⟩ | ⟨hk, ⟨h0, h1⟩, h2⟩ | ⟨hk, ⟨h0, h1⟩, h2, h3, hshort⟩)
    · exact State.exec_verifyPass_open hs (verdict_of_noWord (hend 0 hk))
    · have hall := h₁ hk.ge
      rw [hend 1 hk, h0] at hall
      exact State.exec_verifyPass_open hs (verdict_of_oneWord hall)
    · have hall := h₂ hk.ge
      rw [hend 2 hk, h0, h1] at hall
      exact State.exec_verifyPass_open hs (verdict_of_twoWords hall)
    · have hall := h₃ hk.ge
      rw [hend 3 hk, h0, h1] at hall
      exact State.exec_verifyPass_open hs (verdict_of_threeWords hall h2)
    · have hjudged := verdict_header (h0 ▸ h1 ▸ h₄ hk) h2 h3
      exact State.exec_verifyPass_open hs (hjudged.trans (if_pos (hlen ▸ hshort)))

end Sys2Proof.Machine

end

/-! ### The apply pass (R178, R180 to R182) -/

section

namespace Sys2Proof.Machine

/-- A region record is made of words 1 to 5 (R51). -/
theorem Region.ofWords_congr {w w' : Nat → Word} (h : ∀ i, i < 6 → w i = w' i) : Region.ofWords w = Region.ofWords w' := by
  unfold Region.ofWords
  simp only [h 1 (by decide), h 2 (by decide), h 3 (by decide), h 4 (by decide), h 5 (by decide)]

theorem getD_take {α : Type} (l : List α) (d : α) {i k : Nat} (h : i < k) : (l.take k).getD i d = l.getD i d := by
  simp [List.getElem?_take_of_lt h]

namespace State

variable {s t : State} {n : PointNo} {k : Nat} {ws : List Word} {w : Nat → Word} {r : EepromRead}

/-! #### The transactions (R178) -/

theorem makes_of_start {a : Word} (h : s.startAddress = some a) (x : EepromAnswer) : s.makes ⟨0x50, a, x⟩ = true := by
  rw [makes_iff]
  exact ⟨rfl, h⟩

theorem startAddress_header (h : s.loader.state = .apply) (hd : s.loader.headerDone = false) :
    s.startAddress = some (BitVec.ofNat 16 (2 * 0)) := by
  simp [startAddress, h, hd, headerAddress]

theorem startAddress_region (h : s.loader.state = .apply) (hd : s.loader.headerDone = true)
    (hk : s.loader.regionsDone = k) (hlt : k < s.loader.regions) :
    s.startAddress = some (BitVec.ofNat 16 (2 * (12 + 6 * k))) := by
  simp [startAddress, h, hd, hk, hlt, regionRecordAddress]

theorem startAddress_point (h : s.loader.state = .apply) (hd : s.loader.headerDone = true)
    (hr : s.loader.regionsDone = s.loader.regions) (hk : s.loader.pointsDone = k) (hlt : k < s.loader.points) :
    s.startAddress = some (BitVec.ofNat 16 (2 * (12 + 6 * s.loader.regions + 14 * k))) := by
  simp [startAddress, h, hd, hr, hk, hlt, pointRecordAddress]

theorem startAddress_checksum (h : s.loader.state = .apply) (hd : s.loader.headerDone = true)
    (hr : s.loader.regionsDone = s.loader.regions) (hk : s.loader.pointsDone = s.loader.points) :
    s.startAddress = some (BitVec.ofNat 16 (2 * (12 + 6 * s.loader.regions + 14 * s.loader.points))) := by
  simp [startAddress, h, hd, hr, hk, checksumAddress, imageWords]

theorem addSum_eq (s : State) (ws : List Word) :
    s.addSum ws = { s with loader := { s.loader with sum := s.loader.sum + ws.sum } } := by
  rw [addSum, sumWords_eq_sum]

/-- A transaction that is due and delivers its words has them added into the sum and applied (R180). -/
theorem loaderRow_of_bytes {due : Bool} {m : Nat} {a : Word} {bs : List Byte} {apply : State → List Word → State}
    (hdue : due = true) (ha : s.startAddress = some a) (h : 2 * m ≤ bs.length) :
    loaderRow due m ⟨0x50, a, .bytes bs⟩ apply s =
      .next (apply { s with loader := { s.loader with sum := s.loader.sum + ((wordsOf bs).take m).sum } }
        ((wordsOf bs).take m)) := by
  unfold loaderRow applyTransaction
  rw [hdue, makes_of_start ha, ← addSum_eq]
  dsimp only
  rw [delivered_bytes h]
  rfl

/-- A transaction that is due and fails undoes the load (R181). -/
theorem loaderRow_of_failed {due : Bool} {m : Nat} {a : Word} {apply : State → List Word → State}
    (hdue : due = true) (ha : s.startAddress = some a) :
    loaderRow due m ⟨0x50, a, .failed⟩ apply s = .next s.undoLoad := by
  unfold loaderRow applyTransaction
  rw [hdue, makes_of_start ha]
  rfl

/-- The load is undone whatever its sum was (R181). -/
theorem loadUndone_undoLoad (s : State) (x : Word) :
    s.LoadUndone ({ s with loader := { s.loader with sum := x } } : State).undoLoad := by
  refine ⟨fun m => ?_, fun c => ?_, rfl, fun g => ?_, fun c => ?_, fun v => ?_, rfl, rfl, rfl, rfl, rfl, rfl⟩
  · simp [undoLoad, failLoading, endLoading, point]
  · simp [undoLoad, failLoading, endLoading, chain, Chain.empty]
  · simp [undoLoad, failLoading, endLoading, region, Region.reset]
  · simp [undoLoad, failLoading, endLoading, classState, stopClass]
  · simp [undoLoad, failLoading, endLoading, noticeSet]

/-! #### The header (R180) -/

theorem installOrder_of_valid {lo hi : Word} (h : orderValid lo hi = true) :
    s.installOrder lo hi = { s with notify := { s.notify with order := orderOf lo hi } } := if_pos h

theorem installOrder_of_not_valid {lo hi : Word} (h : ¬ orderValid lo hi = true) :
    s.installOrder lo hi = { s with notify := { s.notify with orderErr := true } } := if_neg h

theorem classState_restartClass (s : State) (c d : ClassNo) (x : Word) : (s.restartClass c x).classState d =
    if c = d then { s.classState d with period := x, remaining := x, overrunCount := 0 } else s.classState d := by
  unfold restartClass
  split_ifs with h
  · rw [h, classState_setClassState_self]
  · rw [classState_setClassState_ne _ h]

theorem classState_restartClasses (s : State) (w : Nat → Word) (c : ClassNo) : (s.restartClasses w).classState c =
    { s.classState c with period := w (5 + c.val), remaining := w (5 + c.val), overrunCount := 0 } := by
  unfold restartClasses
  fin_cases c <;> simp [classState_restartClass]

/-- The header's levels are made of words 5 to 9. -/
theorem headerLevels_congr {w' : Nat → Word} (h : ∀ i, i < 12 → w i = w' i) (s : State) :
    s.headerLevels w = s.headerLevels w' := by
  unfold headerLevels headerNotify restartClasses
  simp only [h 5 (by decide), h 6 (by decide), h 7 (by decide), h 8 (by decide), h 9 (by decide)]

theorem applyHeader_of_words (hw : ∀ i, i < 12 → ws.getD i 0 = w i) (s : State) :
    s.applyHeader ws = ((s.headerLevels w).installOrder (w 10) (w 11)).keepStartFlags (w 4) := by
  rw [applyHeader_parts, headerLevels_congr hw, hw 10 (by decide), hw 11 (by decide), hw 4 (by decide)]

/-- What the header's words set (R180). -/
theorem applyHeader_effect (hw : ∀ i, i < 12 → ws.getD i 0 = w i) (s : State) :
    (∀ c : ClassNo, (s.applyHeader ws).classState c = { s.classState c with
      period := w (5 + c.val), remaining := w (5 + c.val), overrunCount := 0 }) ∧
    (s.applyHeader ws).notify.mask = loByte (w 9) ∧ (s.applyHeader ws).notify.type = hiByte (w 9) ∧
    (orderValid (w 10) (w 11) = true → (s.applyHeader ws).notify.order = orderOf (w 10) (w 11) ∧
      (s.applyHeader ws).notify.orderErr = s.notify.orderErr) ∧
    (¬ orderValid (w 10) (w 11) = true → (s.applyHeader ws).notify.order = Notify.orderReset ∧
      (s.applyHeader ws).notify.orderErr = true) ∧
    (s.applyHeader ws).loader = { s.loader with
      headerDone := true, startScanRun := flag (w 4) 0, startNotifyEn := flag (w 4) 1 } := by
  have hlevels := s.headerLevels_eq w
  have hclasses := s.classState_restartClasses w
  obtain ⟨o, e, hinstalled⟩ := (s.headerLevels w).installOrder_eq (w 10) (w 11)
  rw [applyHeader_of_words hw]
  refine ⟨fun c => ?_, ?_, ?_, fun hv => ?_, fun hv => ?_, ?_⟩
  · rw [hinstalled]
    exact hclasses c
  · rw [hinstalled, hlevels]
    rfl
  · rw [hinstalled, hlevels]
    rfl
  · rw [installOrder_of_valid hv, hlevels]
    exact ⟨rfl, rfl⟩
  · rw [installOrder_of_not_valid hv, hlevels]
    exact ⟨rfl, rfl⟩
  · rw [hinstalled, hlevels]
    rfl

/-! #### The records (R180) -/

/-- A region record that SET_REGION accepts is stored. -/
theorem applyRegionRecord_of_valid {g : RegionNo} (hg : g.val = (loByte (ws.getD 0 0)).toNat)
    (hv : (Region.ofWords fun i => ws.getD i 0).Valid) : s.applyRegionRecord ws =
      { s.setRegion g (Region.ofWords fun i => ws.getD i 0) with
        loader := { s.loader with regionsDone := s.loader.regionsDone + 1 } } := by
  unfold applyRegionRecord
  dsimp only
  rw [← hg, storeRegion_of_valid (by simp) hv]
  rfl

/-- A region record that SET_REGION refuses is counted. -/
theorem applyRegionRecord_of_refused
    (h : 8 ≤ (loByte (ws.getD 0 0)).toNat ∨ ¬ (Region.ofWords fun i => ws.getD i 0).Valid) :
    s.applyRegionRecord ws = { s with loader := { s.loader with
      regionsDone := s.loader.regionsDone + 1, rejects := s.loader.rejects + 1, partialLoad := true } } := by
  have herror : s.storeRegion .primary (loByte (ws.getD 0 0)).toNat (Region.ofWords fun i => ws.getD i 0) =
      .error .badField := by
    by_cases hno : 8 ≤ (loByte (ws.getD 0 0)).toNat
    · exact storeRegion_of_bad_number hno
    · exact storeRegion_of_invalid (n := ⟨_, Nat.not_le.mp hno⟩) (by simp) (h.resolve_left hno)
  unfold applyRegionRecord
  dsimp only
  rw [herror]
  rfl

/-- The loader has no part in a change of CAUSES, nor in a DEFINE. -/
theorem setCauses_loader (s : State) (l : Loader) (n : PointNo) (b : Byte) :
    ({ s with loader := l } : State).setCauses n b = { s.setCauses n b with loader := l } := by
  have hpoint : ({ s with loader := l } : State).point n = s.point n := rfl
  unfold setCauses
  rw [hpoint]
  dsimp only
  split_ifs <;> rfl

theorem foldl_zeroSegment_loader (gs : List SegNo) (s : State) (l : Loader) :
    gs.foldl zeroSegment { s with loader := l } = { gs.foldl zeroSegment s with loader := l } := by
  induction gs generalizing s with
  | nil => rfl
  | cons g gs ih => exact ih (s.zeroSegment g)

theorem takeSegments_loader (s : State) (l : Loader) (k : Nat) :
    ({ s with loader := l } : State).takeSegments k = { s.takeSegments k with loader := l } :=
  foldl_zeroSegment_loader _ { s with freeSegs := s.freeSegs.drop k } l

theorem appendTo_loader (s : State) (l : Loader) (c : ClassSel) (n : PointNo) :
    ({ s with loader := l } : State).appendTo c n = { s.appendTo c n with loader := l } := by
  have hchain : ({ s with loader := l } : State).chain c = s.chain c := rfl
  cases h : (s.chain c).tail with
  | none => rw [appendTo_of_tail_none h, appendTo_of_tail_none (hchain ▸ h)]; rfl
  | some m => rw [appendTo_of_tail_some h, appendTo_of_tail_some (hchain ▸ h)]; rfl

theorem defineCore_loader (s : State) (l : Loader) (n : PointNo) (d : Definition) :
    ({ s with loader := l } : State).defineCore n d = { s.defineCore n d with loader := l } := by
  have hparts : ∀ u : State, u.defineCore n d =
      (((u.setCauses n 0).takeSegments (segmentsFor d.blockLen)).setPoint n
        (definedRecord d ((u.setCauses n 0).freeSegs.take (segmentsFor d.blockLen)))).appendTo d.cls n := fun _ => rfl
  rw [hparts, hparts, setCauses_loader, takeSegments_loader]
  exact appendTo_loader (((s.setCauses n 0).takeSegments (segmentsFor d.blockLen)).setPoint n
    (definedRecord d ((s.setCauses n 0).freeSegs.take (segmentsFor d.blockLen)))) l d.cls n

theorem applyPointRecord_of_defined {d : Definition} (hfree : (s.point (loByte (ws.getD 0 0)).toFin).state = .free)
    (hd : s.checkDefinition (RawDef.ofWords fun i => ws.getD (i + 1) 0) none 0 = .ok d) : s.applyPointRecord ws =
      { s.defineCore (loByte (ws.getD 0 0)).toFin d with
        loader := { s.loader with pointsDone := s.loader.pointsDone + 1 } } := by
  have hloader : (s.defineCore (loByte (ws.getD 0 0)).toFin d).loader = s.loader :=
    (s.tableFrame_defineCore _ d).loader
  unfold applyPointRecord
  dsimp only
  rw [if_pos hfree, hd]
  dsimp only
  rw [hloader]

theorem applyPointRecord_of_refused (h : (s.point (loByte (ws.getD 0 0)).toFin).state ≠ .free ∨
    ∃ code, s.checkDefinition (RawDef.ofWords fun i => ws.getD (i + 1) 0) none 0 = .error code) :
    s.applyPointRecord ws = { s with loader := { s.loader with
      pointsDone := s.loader.pointsDone + 1, rejects := s.loader.rejects + 1, partialLoad := true } } := by
  unfold applyPointRecord
  dsimp only
  split_ifs with hfree
  · obtain ⟨code, hcode⟩ := h.resolve_left (not_not_intro hfree)
    rw [hcode]
    rfl
  · rfl

/-! #### The checksum (R180 to R182) -/

/-- With SCAN_RUN clear the start flags take their values and nothing else changes. -/
theorem completeLoading_of_idle (h : s.scan.run = false) : s.completeLoading = { s with
    lastTaken := .scan, loader := { s.loader with state := .done }
    scan := { s.scan with run := s.loader.startScanRun }
    notify := { s.notify with notifyEn := s.loader.startNotifyEn } } := by
  unfold completeLoading
  dsimp only
  rw [writeScanRun_of_kept (s := s.endLoading) (.inr h)]
  rfl

end State

end Sys2Proof.Machine

end

/-! ### The apply pass loads the image -/

section

namespace Sys2Proof.Machine

/-- Settles O60: each transaction by the row that is due, its words by the lemmas about the header, the records and the
checksum, its failure by the undoing of the load. -/
theorem applyPassLoadsTheImage : Obligations.ApplyPassLoadsTheImage := by
  intro s hs
  have hundo : ∀ i, exec i s = .next s.undoLoad → ∃ t, exec i s = .next t ∧ s.LoadUndone t := fun i hi =>
    ⟨_, hi, s.loadUndone_undoLoad s.loader.sum⟩
  intro l stands from_ regionAt pointAt undone
  have hheader : l.headerDone = false → s.expectsHeader = true ∧ s.startAddress = some (BitVec.ofNat 16 (2 * 0)) :=
    fun hd => ⟨State.expectsHeader_iff.mpr ⟨hs, hd⟩, State.startAddress_header hs hd⟩
  have hregion : ∀ k, k < l.regions → stands k 0 →
      s.expectsRegion = true ∧ s.startAddress = some (BitVec.ofNat 16 (2 * regionAt k)) := fun k hk ⟨hd, hr, _⟩ =>
    ⟨State.expectsRegion_iff.mpr ⟨hs, hd, lt_of_eq_of_lt hr hk⟩, State.startAddress_region hs hd hr hk⟩
  have hpoint : ∀ k, k < l.points → stands l.regions k →
      s.expectsPoint = true ∧ s.startAddress = some (BitVec.ofNat 16 (2 * pointAt k)) := fun k hk ⟨hd, hr, hp⟩ =>
    ⟨State.expectsPoint_iff.mpr ⟨hs, hd, hr.ge, lt_of_eq_of_lt hp hk⟩, State.startAddress_point hs hd hr hp hk⟩
  have hchecksum : stands l.regions l.points →
      s.expectsChecksum = true ∧ s.startAddress = some (BitVec.ofNat 16 (2 * pointAt l.points)) := fun ⟨hd, hr, hp⟩ =>
    ⟨State.expectsChecksum_iff.mpr ⟨hs, hd, hr.ge, hp.ge⟩, State.startAddress_checksum hs hd hr hp⟩
  refine ⟨fun bs => ?delivered, fun hd => ?_, fun k hk hst => ?_, fun k hk hst => ?_, fun hst => ?_⟩
  case delivered =>
    intro w sum entries
    have htake : ∀ m i, i < m → ((wordsOf bs).take m).getD i 0 = w i := fun m i hi => getD_take _ _ hi
    refine ⟨fun hd hlen => ?header, fun k hk hst hlen => ?region, fun k hk hst hlen => ?point, fun hst hlen => ?checksum⟩
    case header =>
      obtain ⟨hdue, ha⟩ := hheader hd
      have hvalid : State.orderValid (w 10) (w 11) = true ↔ ∀ u, u < 8 → entries.count u = 1 :=
        State.orderValid_iff (w 10) (w 11)
      have hexec := (State.exec_loadHeader _ s).trans (State.loaderRow_of_bytes (bs := bs) (m := 12) hdue ha hlen)
      obtain ⟨hclasses, hmask, htype, horder, hreset, hloader⟩ := State.applyHeader_effect (htake 12)
        { s with loader := { s.loader with sum := s.loader.sum + ((wordsOf bs).take 12).sum } }
      refine ⟨_, hexec, hclasses, hmask, htype, fun hcount => ?_, fun hcount => ?_, hloader, ?_⟩
      · obtain ⟨hinstalled, herr⟩ := horder (hvalid.mpr hcount)
        rw [hinstalled]
        exact ⟨State.orderOf_eq_entries (hvalid.mpr hcount), herr⟩
      · exact hreset (mt hvalid.mp hcount)
      · obtain ⟨_, _, _, _, _, _, hframe⟩ := State.applyHeader_eq
          { s with loader := { s.loader with sum := s.loader.sum + ((wordsOf bs).take 12).sum } } ((wordsOf bs).take 12)
        rw [hframe]
    case region =>
      intro g refused
      obtain ⟨hdue, ha⟩ := hregion k hk hst
      obtain ⟨-, rfl, -⟩ := hst
      have hexec := (State.exec_loadRegionRecord _ s).trans (State.loaderRow_of_bytes (bs := bs) (m := 6) hdue ha hlen)
      have hnumber := htake 6 0 (by decide)
      have hrecord : (Region.ofWords fun i => ((wordsOf bs).take 6).getD i 0) = g := Region.ofWords_congr (htake 6)
      refine ⟨fun href => ?_, fun r hr hg => ?_⟩
      · rw [hexec, State.applyRegionRecord_of_refused (by rw [hnumber, hrecord]; exact href)]
      · rw [State.applyRegionRecord_of_valid (g := r) (by rw [hnumber]; exact hr) (by rw [hrecord]; exact hg),
          hrecord] at hexec
        refine ⟨_, hexec, ?_, fun x hx => ?_, ?_⟩
        · exact s.region_setRegion_self r g
        · exact s.region_setRegion_ne hx.symm g
        · rfl
    case point =>
      intro n raw
      obtain ⟨hdue, ha⟩ := hpoint k hk hst
      obtain ⟨-, -, rfl⟩ := hst
      have hexec := (State.exec_loadPointRecord _ s).trans (State.loaderRow_of_bytes (bs := bs) (m := 14) hdue ha hlen)
      have hnumber : (loByte (((wordsOf bs).take 14).getD 0 0)).toFin = n := by rw [htake 14 0 (by decide)]
      have hraw : (RawDef.ofWords fun i => ((wordsOf bs).take 14).getD (i + 1) 0) = raw :=
        RawDef.ofWords_congr fun i hi => htake 14 (i + 1) (by omega)
      refine ⟨fun href => ?_, fun d hfree hd => ?_⟩
      · rw [hexec, State.applyPointRecord_of_refused (by rw [hnumber, hraw]; exact href)]
      · rw [hexec, State.applyPointRecord_of_defined (d := d) (by rw [hnumber]; exact hfree) (by rw [hraw]; exact hd),
          hnumber, State.defineCore_loader]
    case checksum =>
      obtain ⟨hdue, ha⟩ := hchecksum hst
      have hexec := (State.exec_loadChecksum _ s).trans (State.loaderRow_of_bytes (bs := bs) (m := 1) hdue ha hlen)
      refine ⟨fun hsum hquiet => ?_, fun hsum => ?_⟩
      · obtain ⟨-, -, -, hrun, -⟩ := hquiet (State.loading_of_apply hs)
        have hzero : s.loader.sum + ((wordsOf bs).take 1).sum = 0 := hsum
        rw [hzero] at hexec
        rw [hexec, State.judgeSum, if_pos rfl]
        exact congrArg Host.Outcome.next
          (State.completeLoading_of_idle (s := { s with loader := { s.loader with sum := 0 } }) hrun)
      · rw [State.judgeSum, if_neg hsum] at hexec
        exact ⟨_, hexec, s.loadUndone_undoLoad _⟩
  · obtain ⟨hdue, ha⟩ := hheader hd
    exact hundo _ (State.loaderRow_of_failed hdue ha)
  · obtain ⟨hdue, ha⟩ := hregion k hk hst
    exact hundo _ (State.loaderRow_of_failed hdue ha)
  · obtain ⟨hdue, ha⟩ := hpoint k hk hst
    exact hundo _ (State.loaderRow_of_failed hdue ha)
  · obtain ⟨hdue, ha⟩ := hchecksum hst
    exact hundo _ (State.loaderRow_of_failed hdue ha)

end Sys2Proof.Machine

end
